-- ==== Sys2Proof/Word.lean ====
section
/-! DEFINITION. The two word types of the core (spec 00_scope R9, R15): every register and memory byte is 8 bits wide, the program
counter and every address 16 bits. Arithmetic on them wraps, which is R15's "mod 256" and "mod 65536". -/

namespace Sys2Proof

/-- An 8-bit value: A, X, Y, SP, the view of P, a memory byte (R9, R15). -/
abbrev Byte := BitVec 8

/-- A 16-bit value: PC and every address (R9, R15). -/
abbrev Word := BitVec 16

end Sys2Proof
end

