-- ==== Sys2Proof/Machine/Bits.lean ====
section
/-! DEFINITION. The byte-order and bit-field helpers of spec 00_scope R15. -/

namespace Sys2Proof.Machine

/-- The low byte of a word, `w mod 256` (R15). -/
def lo (w : Word) : Byte := w.setWidth 8

/-- The high byte of a word, `w div 256` (R15); also the page of an address (R23). -/
def hi (w : Word) : Byte := (w >>> 8).setWidth 8

/-- The word with high byte `h` and low byte `l`: `h * 256 + l` (R15). -/
def word (h l : Byte) : Word := (h.setWidth 16 <<< 8) ||| l.setWidth 16

/-- The 16-bit zero extension of a byte (R15). -/
def zext16 (b : Byte) : Word := b.setWidth 16

/-- A number brought to 16 bits, "mod 65536" (R15); of `signed8(b)` it is `sext_16(b)`. -/
def wrap16 (d : Int) : Word := BitVec.ofInt 16 d

/-- One bit as a byte, 0 or 1. -/
def flagBit (b : Bool) : Byte := if b then 1#8 else 0#8

end Sys2Proof.Machine
end

