-- ==== Sys2Proof/Syntax.lean ====
section
/-! DEFINITION. The instructions as terms: one constructor of `Instr` per row of spec/opcode_table.json (30_encoding R126), with its
mnemonic and its operand in one of the 13 addressing modes (40_addressing_modes R164 to R176). -/

namespace Sys2Proof

/-- The 56 mnemonics (00_scope R3), in the order of the opcode table. -/
inductive Mnemonic where
  | brk | ora | asl | php | bpl | clc | jsr | and | bit | rol | plp | bmi | sec | rti
  | eor | lsr | pha | jmp | bvc | cli | rts | adc | ror | pla | bvs | sei | sta | sty
  | stx | dey | txa | bcc | tya | txs | ldy | lda | ldx | tay | tax | bcs | clv | tsx
  | cpy | cmp | dec | iny | dex | bne | cld | cpx | sbc | inc | inx | nop | beq | sed
  deriving DecidableEq, Repr

/-- The 13 addressing modes (00_scope R9, 90_conflicts C9: implied and accumulator are two modes). -/
inductive Mode where
  | implied
  | accumulator
  | immediate
  | zeroPage
  | zeroPageX
  | zeroPageY
  | absolute
  | indirect
  | absoluteX
  | absoluteY
  | indexedIndirect
  | indirectIndexed
  | relative
  deriving DecidableEq, Repr

/-- How many operand bytes follow the opcode in each mode (30_encoding R120). -/
def Mode.operandBytes : Mode → Nat
  | .implied => 0
  | .accumulator => 0
  | .immediate => 1
  | .zeroPage => 1
  | .zeroPageX => 1
  | .zeroPageY => 1
  | .absolute => 2
  | .indirect => 2
  | .absoluteX => 2
  | .absoluteY => 2
  | .indexedIndirect => 1
  | .indirectIndexed => 1
  | .relative => 1

/-- An operand as the instruction holds it: the mode together with its immediate byte, address byte, address word or branch
offset (30_encoding R122). A branch offset is the signed number `signed8(b1)`, an integer (log 15). -/
inductive Operand where
  | implied
  | accumulator
  | immediate (n : Byte)
  | zeroPage (n : Byte)
  | zeroPageX (n : Byte)
  | zeroPageY (n : Byte)
  | absolute (w : Word)
  | indirect (w : Word)
  | absoluteX (w : Word)
  | absoluteY (w : Word)
  | indexedIndirect (n : Byte)
  | indirectIndexed (n : Byte)
  | relative (d : Int)
  deriving DecidableEq, Repr

/-- The mode of an operand. -/
def Operand.mode : Operand → Mode
  | .implied => .implied
  | .accumulator => .accumulator
  | .immediate _ => .immediate
  | .zeroPage _ => .zeroPage
  | .zeroPageX _ => .zeroPageX
  | .zeroPageY _ => .zeroPageY
  | .absolute _ => .absolute
  | .indirect _ => .indirect
  | .absoluteX _ => .absoluteX
  | .absoluteY _ => .absoluteY
  | .indexedIndirect _ => .indexedIndirect
  | .indirectIndexed _ => .indirectIndexed
  | .relative _ => .relative

/-- The 151 instructions, one constructor per row of the opcode table, in its order (30_encoding R126). -/
inductive Instr where
  | brk  -- 00  BRK
  | oraIndX (n : Byte)  -- 01  ORA ($nn,X)
  | oraZp (n : Byte)  -- 05  ORA $nn
  | aslZp (n : Byte)  -- 06  ASL $nn
  | php  -- 08  PHP
  | oraImm (n : Byte)  -- 09  ORA #$nn
  | aslAcc  -- 0A  ASL A
  | oraAbs (w : Word)  -- 0D  ORA $hhll
  | aslAbs (w : Word)  -- 0E  ASL $hhll
  | bpl (d : Int)  -- 10  BPL $tttt
  | oraIndY (n : Byte)  -- 11  ORA ($nn),Y
  | oraZpX (n : Byte)  -- 15  ORA $nn,X
  | aslZpX (n : Byte)  -- 16  ASL $nn,X
  | clc  -- 18  CLC
  | oraAbsY (w : Word)  -- 19  ORA $hhll,Y
  | oraAbsX (w : Word)  -- 1D  ORA $hhll,X
  | aslAbsX (w : Word)  -- 1E  ASL $hhll,X
  | jsr (w : Word)  -- 20  JSR $hhll
  | andIndX (n : Byte)  -- 21  AND ($nn,X)
  | bitZp (n : Byte)  -- 24  BIT $nn
  | andZp (n : Byte)  -- 25  AND $nn
  | rolZp (n : Byte)  -- 26  ROL $nn
  | plp  -- 28  PLP
  | andImm (n : Byte)  -- 29  AND #$nn
  | rolAcc  -- 2A  ROL A
  | bitAbs (w : Word)  -- 2C  BIT $hhll
  | andAbs (w : Word)  -- 2D  AND $hhll
  | rolAbs (w : Word)  -- 2E  ROL $hhll
  | bmi (d : Int)  -- 30  BMI $tttt
  | andIndY (n : Byte)  -- 31  AND ($nn),Y
  | andZpX (n : Byte)  -- 35  AND $nn,X
  | rolZpX (n : Byte)  -- 36  ROL $nn,X
  | sec  -- 38  SEC
  | andAbsY (w : Word)  -- 39  AND $hhll,Y
  | andAbsX (w : Word)  -- 3D  AND $hhll,X
  | rolAbsX (w : Word)  -- 3E  ROL $hhll,X
  | rti  -- 40  RTI
  | eorIndX (n : Byte)  -- 41  EOR ($nn,X)
  | eorZp (n : Byte)  -- 45  EOR $nn
  | lsrZp (n : Byte)  -- 46  LSR $nn
  | pha  -- 48  PHA
  | eorImm (n : Byte)  -- 49  EOR #$nn
  | lsrAcc  -- 4A  LSR A
  | jmpAbs (w : Word)  -- 4C  JMP $hhll
  | eorAbs (w : Word)  -- 4D  EOR $hhll
  | lsrAbs (w : Word)  -- 4E  LSR $hhll
  | bvc (d : Int)  -- 50  BVC $tttt
  | eorIndY (n : Byte)  -- 51  EOR ($nn),Y
  | eorZpX (n : Byte)  -- 55  EOR $nn,X
  | lsrZpX (n : Byte)  -- 56  LSR $nn,X
  | cli  -- 58  CLI
  | eorAbsY (w : Word)  -- 59  EOR $hhll,Y
  | eorAbsX (w : Word)  -- 5D  EOR $hhll,X
  | lsrAbsX (w : Word)  -- 5E  LSR $hhll,X
  | rts  -- 60  RTS
  | adcIndX (n : Byte)  -- 61  ADC ($nn,X)
  | adcZp (n : Byte)  -- 65  ADC $nn
  | rorZp (n : Byte)  -- 66  ROR $nn
  | pla  -- 68  PLA
  | adcImm (n : Byte)  -- 69  ADC #$nn
  | rorAcc  -- 6A  ROR A
  | jmpInd (w : Word)  -- 6C  JMP ($hhll)
  | adcAbs (w : Word)  -- 6D  ADC $hhll
  | rorAbs (w : Word)  -- 6E  ROR $hhll
  | bvs (d : Int)  -- 70  BVS $tttt
  | adcIndY (n : Byte)  -- 71  ADC ($nn),Y
  | adcZpX (n : Byte)  -- 75  ADC $nn,X
  | rorZpX (n : Byte)  -- 76  ROR $nn,X
  | sei  -- 78  SEI
  | adcAbsY (w : Word)  -- 79  ADC $hhll,Y
  | adcAbsX (w : Word)  -- 7D  ADC $hhll,X
  | rorAbsX (w : Word)  -- 7E  ROR $hhll,X
  | staIndX (n : Byte)  -- 81  STA ($nn,X)
  | styZp (n : Byte)  -- 84  STY $nn
  | staZp (n : Byte)  -- 85  STA $nn
  | stxZp (n : Byte)  -- 86  STX $nn
  | dey  -- 88  DEY
  | txa  -- 8A  TXA
  | styAbs (w : Word)  -- 8C  STY $hhll
  | staAbs (w : Word)  -- 8D  STA $hhll
  | stxAbs (w : Word)  -- 8E  STX $hhll
  | bcc (d : Int)  -- 90  BCC $tttt
  | staIndY (n : Byte)  -- 91  STA ($nn),Y
  | styZpX (n : Byte)  -- 94  STY $nn,X
  | staZpX (n : Byte)  -- 95  STA $nn,X
  | stxZpY (n : Byte)  -- 96  STX $nn,Y
  | tya  -- 98  TYA
  | staAbsY (w : Word)  -- 99  STA $hhll,Y
  | txs  -- 9A  TXS
  | staAbsX (w : Word)  -- 9D  STA $hhll,X
  | ldyImm (n : Byte)  -- A0  LDY #$nn
  | ldaIndX (n : Byte)  -- A1  LDA ($nn,X)
  | ldxImm (n : Byte)  -- A2  LDX #$nn
  | ldyZp (n : Byte)  -- A4  LDY $nn
  | ldaZp (n : Byte)  -- A5  LDA $nn
  | ldxZp (n : Byte)  -- A6  LDX $nn
  | tay  -- A8  TAY
  | ldaImm (n : Byte)  -- A9  LDA #$nn
  | tax  -- AA  TAX
  | ldyAbs (w : Word)  -- AC  LDY $hhll
  | ldaAbs (w : Word)  -- AD  LDA $hhll
  | ldxAbs (w : Word)  -- AE  LDX $hhll
  | bcs (d : Int)  -- B0  BCS $tttt
  | ldaIndY (n : Byte)  -- B1  LDA ($nn),Y
  | ldyZpX (n : Byte)  -- B4  LDY $nn,X
  | ldaZpX (n : Byte)  -- B5  LDA $nn,X
  | ldxZpY (n : Byte)  -- B6  LDX $nn,Y
  | clv  -- B8  CLV
  | ldaAbsY (w : Word)  -- B9  LDA $hhll,Y
  | tsx  -- BA  TSX
  | ldyAbsX (w : Word)  -- BC  LDY $hhll,X
  | ldaAbsX (w : Word)  -- BD  LDA $hhll,X
  | ldxAbsY (w : Word)  -- BE  LDX $hhll,Y
  | cpyImm (n : Byte)  -- C0  CPY #$nn
  | cmpIndX (n : Byte)  -- C1  CMP ($nn,X)
  | cpyZp (n : Byte)  -- C4  CPY $nn
  | cmpZp (n : Byte)  -- C5  CMP $nn
  | decZp (n : Byte)  -- C6  DEC $nn
  | iny  -- C8  INY
  | cmpImm (n : Byte)  -- C9  CMP #$nn
  | dex  -- CA  DEX
  | cpyAbs (w : Word)  -- CC  CPY $hhll
  | cmpAbs (w : Word)  -- CD  CMP $hhll
  | decAbs (w : Word)  -- CE  DEC $hhll
  | bne (d : Int)  -- D0  BNE $tttt
  | cmpIndY (n : Byte)  -- D1  CMP ($nn),Y
  | cmpZpX (n : Byte)  -- D5  CMP $nn,X
  | decZpX (n : Byte)  -- D6  DEC $nn,X
  | cld  -- D8  CLD
  | cmpAbsY (w : Word)  -- D9  CMP $hhll,Y
  | cmpAbsX (w : Word)  -- DD  CMP $hhll,X
  | decAbsX (w : Word)  -- DE  DEC $hhll,X
  | cpxImm (n : Byte)  -- E0  CPX #$nn
  | sbcIndX (n : Byte)  -- E1  SBC ($nn,X)
  | cpxZp (n : Byte)  -- E4  CPX $nn
  | sbcZp (n : Byte)  -- E5  SBC $nn
  | incZp (n : Byte)  -- E6  INC $nn
  | inx  -- E8  INX
  | sbcImm (n : Byte)  -- E9  SBC #$nn
  | nop  -- EA  NOP
  | cpxAbs (w : Word)  -- EC  CPX $hhll
  | sbcAbs (w : Word)  -- ED  SBC $hhll
  | incAbs (w : Word)  -- EE  INC $hhll
  | beq (d : Int)  -- F0  BEQ $tttt
  | sbcIndY (n : Byte)  -- F1  SBC ($nn),Y
  | sbcZpX (n : Byte)  -- F5  SBC $nn,X
  | incZpX (n : Byte)  -- F6  INC $nn,X
  | sed  -- F8  SED
  | sbcAbsY (w : Word)  -- F9  SBC $hhll,Y
  | sbcAbsX (w : Word)  -- FD  SBC $hhll,X
  | incAbsX (w : Word)  -- FE  INC $hhll,X
  deriving DecidableEq, Repr

/-- The mnemonic of an instruction (30_encoding R126). -/
def Instr.mnemonic : Instr → Mnemonic
  | .brk => .brk
  | .oraIndX _ => .ora
  | .oraZp _ => .ora
  | .aslZp _ => .asl
  | .php => .php
  | .oraImm _ => .ora
  | .aslAcc => .asl
  | .oraAbs _ => .ora
  | .aslAbs _ => .asl
  | .bpl _ => .bpl
  | .oraIndY _ => .ora
  | .oraZpX _ => .ora
  | .aslZpX _ => .asl
  | .clc => .clc
  | .oraAbsY _ => .ora
  | .oraAbsX _ => .ora
  | .aslAbsX _ => .asl
  | .jsr _ => .jsr
  | .andIndX _ => .and
  | .bitZp _ => .bit
  | .andZp _ => .and
  | .rolZp _ => .rol
  | .plp => .plp
  | .andImm _ => .and
  | .rolAcc => .rol
  | .bitAbs _ => .bit
  | .andAbs _ => .and
  | .rolAbs _ => .rol
  | .bmi _ => .bmi
  | .andIndY _ => .and
  | .andZpX _ => .and
  | .rolZpX _ => .rol
  | .sec => .sec
  | .andAbsY _ => .and
  | .andAbsX _ => .and
  | .rolAbsX _ => .rol
  | .rti => .rti
  | .eorIndX _ => .eor
  | .eorZp _ => .eor
  | .lsrZp _ => .lsr
  | .pha => .pha
  | .eorImm _ => .eor
  | .lsrAcc => .lsr
  | .jmpAbs _ => .jmp
  | .eorAbs _ => .eor
  | .lsrAbs _ => .lsr
  | .bvc _ => .bvc
  | .eorIndY _ => .eor
  | .eorZpX _ => .eor
  | .lsrZpX _ => .lsr
  | .cli => .cli
  | .eorAbsY _ => .eor
  | .eorAbsX _ => .eor
  | .lsrAbsX _ => .lsr
  | .rts => .rts
  | .adcIndX _ => .adc
  | .adcZp _ => .adc
  | .rorZp _ => .ror
  | .pla => .pla
  | .adcImm _ => .adc
  | .rorAcc => .ror
  | .jmpInd _ => .jmp
  | .adcAbs _ => .adc
  | .rorAbs _ => .ror
  | .bvs _ => .bvs
  | .adcIndY _ => .adc
  | .adcZpX _ => .adc
  | .rorZpX _ => .ror
  | .sei => .sei
  | .adcAbsY _ => .adc
  | .adcAbsX _ => .adc
  | .rorAbsX _ => .ror
  | .staIndX _ => .sta
  | .styZp _ => .sty
  | .staZp _ => .sta
  | .stxZp _ => .stx
  | .dey => .dey
  | .txa => .txa
  | .styAbs _ => .sty
  | .staAbs _ => .sta
  | .stxAbs _ => .stx
  | .bcc _ => .bcc
  | .staIndY _ => .sta
  | .styZpX _ => .sty
  | .staZpX _ => .sta
  | .stxZpY _ => .stx
  | .tya => .tya
  | .staAbsY _ => .sta
  | .txs => .txs
  | .staAbsX _ => .sta
  | .ldyImm _ => .ldy
  | .ldaIndX _ => .lda
  | .ldxImm _ => .ldx
  | .ldyZp _ => .ldy
  | .ldaZp _ => .lda
  | .ldxZp _ => .ldx
  | .tay => .tay
  | .ldaImm _ => .lda
  | .tax => .tax
  | .ldyAbs _ => .ldy
  | .ldaAbs _ => .lda
  | .ldxAbs _ => .ldx
  | .bcs _ => .bcs
  | .ldaIndY _ => .lda
  | .ldyZpX _ => .ldy
  | .ldaZpX _ => .lda
  | .ldxZpY _ => .ldx
  | .clv => .clv
  | .ldaAbsY _ => .lda
  | .tsx => .tsx
  | .ldyAbsX _ => .ldy
  | .ldaAbsX _ => .lda
  | .ldxAbsY _ => .ldx
  | .cpyImm _ => .cpy
  | .cmpIndX _ => .cmp
  | .cpyZp _ => .cpy
  | .cmpZp _ => .cmp
  | .decZp _ => .dec
  | .iny => .iny
  | .cmpImm _ => .cmp
  | .dex => .dex
  | .cpyAbs _ => .cpy
  | .cmpAbs _ => .cmp
  | .decAbs _ => .dec
  | .bne _ => .bne
  | .cmpIndY _ => .cmp
  | .cmpZpX _ => .cmp
  | .decZpX _ => .dec
  | .cld => .cld
  | .cmpAbsY _ => .cmp
  | .cmpAbsX _ => .cmp
  | .decAbsX _ => .dec
  | .cpxImm _ => .cpx
  | .sbcIndX _ => .sbc
  | .cpxZp _ => .cpx
  | .sbcZp _ => .sbc
  | .incZp _ => .inc
  | .inx => .inx
  | .sbcImm _ => .sbc
  | .nop => .nop
  | .cpxAbs _ => .cpx
  | .sbcAbs _ => .sbc
  | .incAbs _ => .inc
  | .beq _ => .beq
  | .sbcIndY _ => .sbc
  | .sbcZpX _ => .sbc
  | .incZpX _ => .inc
  | .sed => .sed
  | .sbcAbsY _ => .sbc
  | .sbcAbsX _ => .sbc
  | .incAbsX _ => .inc

/-- The operand of an instruction, in its addressing mode (30_encoding R126). -/
def Instr.operand : Instr → Operand
  | .brk => .implied
  | .oraIndX n => .indexedIndirect n
  | .oraZp n => .zeroPage n
  | .aslZp n => .zeroPage n
  | .php => .implied
  | .oraImm n => .immediate n
  | .aslAcc => .accumulator
  | .oraAbs w => .absolute w
  | .aslAbs w => .absolute w
  | .bpl d => .relative d
  | .oraIndY n => .indirectIndexed n
  | .oraZpX n => .zeroPageX n
  | .aslZpX n => .zeroPageX n
  | .clc => .implied
  | .oraAbsY w => .absoluteY w
  | .oraAbsX w => .absoluteX w
  | .aslAbsX w => .absoluteX w
  | .jsr w => .absolute w
  | .andIndX n => .indexedIndirect n
  | .bitZp n => .zeroPage n
  | .andZp n => .zeroPage n
  | .rolZp n => .zeroPage n
  | .plp => .implied
  | .andImm n => .immediate n
  | .rolAcc => .accumulator
  | .bitAbs w => .absolute w
  | .andAbs w => .absolute w
  | .rolAbs w => .absolute w
  | .bmi d => .relative d
  | .andIndY n => .indirectIndexed n
  | .andZpX n => .zeroPageX n
  | .rolZpX n => .zeroPageX n
  | .sec => .implied
  | .andAbsY w => .absoluteY w
  | .andAbsX w => .absoluteX w
  | .rolAbsX w => .absoluteX w
  | .rti => .implied
  | .eorIndX n => .indexedIndirect n
  | .eorZp n => .zeroPage n
  | .lsrZp n => .zeroPage n
  | .pha => .implied
  | .eorImm n => .immediate n
  | .lsrAcc => .accumulator
  | .jmpAbs w => .absolute w
  | .eorAbs w => .absolute w
  | .lsrAbs w => .absolute w
  | .bvc d => .relative d
  | .eorIndY n => .indirectIndexed n
  | .eorZpX n => .zeroPageX n
  | .lsrZpX n => .zeroPageX n
  | .cli => .implied
  | .eorAbsY w => .absoluteY w
  | .eorAbsX w => .absoluteX w
  | .lsrAbsX w => .absoluteX w
  | .rts => .implied
  | .adcIndX n => .indexedIndirect n
  | .adcZp n => .zeroPage n
  | .rorZp n => .zeroPage n
  | .pla => .implied
  | .adcImm n => .immediate n
  | .rorAcc => .accumulator
  | .jmpInd w => .indirect w
  | .adcAbs w => .absolute w
  | .rorAbs w => .absolute w
  | .bvs d => .relative d
  | .adcIndY n => .indirectIndexed n
  | .adcZpX n => .zeroPageX n
  | .rorZpX n => .zeroPageX n
  | .sei => .implied
  | .adcAbsY w => .absoluteY w
  | .adcAbsX w => .absoluteX w
  | .rorAbsX w => .absoluteX w
  | .staIndX n => .indexedIndirect n
  | .styZp n => .zeroPage n
  | .staZp n => .zeroPage n
  | .stxZp n => .zeroPage n
  | .dey => .implied
  | .txa => .implied
  | .styAbs w => .absolute w
  | .staAbs w => .absolute w
  | .stxAbs w => .absolute w
  | .bcc d => .relative d
  | .staIndY n => .indirectIndexed n
  | .styZpX n => .zeroPageX n
  | .staZpX n => .zeroPageX n
  | .stxZpY n => .zeroPageY n
  | .tya => .implied
  | .staAbsY w => .absoluteY w
  | .txs => .implied
  | .staAbsX w => .absoluteX w
  | .ldyImm n => .immediate n
  | .ldaIndX n => .indexedIndirect n
  | .ldxImm n => .immediate n
  | .ldyZp n => .zeroPage n
  | .ldaZp n => .zeroPage n
  | .ldxZp n => .zeroPage n
  | .tay => .implied
  | .ldaImm n => .immediate n
  | .tax => .implied
  | .ldyAbs w => .absolute w
  | .ldaAbs w => .absolute w
  | .ldxAbs w => .absolute w
  | .bcs d => .relative d
  | .ldaIndY n => .indirectIndexed n
  | .ldyZpX n => .zeroPageX n
  | .ldaZpX n => .zeroPageX n
  | .ldxZpY n => .zeroPageY n
  | .clv => .implied
  | .ldaAbsY w => .absoluteY w
  | .tsx => .implied
  | .ldyAbsX w => .absoluteX w
  | .ldaAbsX w => .absoluteX w
  | .ldxAbsY w => .absoluteY w
  | .cpyImm n => .immediate n
  | .cmpIndX n => .indexedIndirect n
  | .cpyZp n => .zeroPage n
  | .cmpZp n => .zeroPage n
  | .decZp n => .zeroPage n
  | .iny => .implied
  | .cmpImm n => .immediate n
  | .dex => .implied
  | .cpyAbs w => .absolute w
  | .cmpAbs w => .absolute w
  | .decAbs w => .absolute w
  | .bne d => .relative d
  | .cmpIndY n => .indirectIndexed n
  | .cmpZpX n => .zeroPageX n
  | .decZpX n => .zeroPageX n
  | .cld => .implied
  | .cmpAbsY w => .absoluteY w
  | .cmpAbsX w => .absoluteX w
  | .decAbsX w => .absoluteX w
  | .cpxImm n => .immediate n
  | .sbcIndX n => .indexedIndirect n
  | .cpxZp n => .zeroPage n
  | .sbcZp n => .zeroPage n
  | .incZp n => .zeroPage n
  | .inx => .implied
  | .sbcImm n => .immediate n
  | .nop => .implied
  | .cpxAbs w => .absolute w
  | .sbcAbs w => .absolute w
  | .incAbs w => .absolute w
  | .beq d => .relative d
  | .sbcIndY n => .indirectIndexed n
  | .sbcZpX n => .zeroPageX n
  | .incZpX n => .zeroPageX n
  | .sed => .implied
  | .sbcAbsY w => .absoluteY w
  | .sbcAbsX w => .absoluteX w
  | .incAbsX w => .absoluteX w

/-- The addressing mode of an instruction. -/
def Instr.mode (i : Instr) : Mode := i.operand.mode

/-- The length of an instruction in bytes: the opcode and its operand bytes (30_encoding R120). -/
def Instr.length (i : Instr) : Nat := 1 + i.mode.operandBytes

end Sys2Proof
end

