-- ==== Sys2Proof/WellFormed.lean ====
section
/-! DEFINITION. Which terms are instructions of the machine. Register numbers, immediates and addresses are bounded by their types
and the mode of each constructor is one the opcode table gives it, so one check is left: a branch offset is a signed byte
(30_encoding R122: "-128..+127", R131: "which must lie in -128..+127"). -/

namespace Sys2Proof

/-- The operand can be assembled into its bytes: a branch offset lies in -128..+127 (30_encoding R122, R131). -/
def Operand.wellFormed : Operand → Bool
  | .implied => true
  | .accumulator => true
  | .immediate _ => true
  | .zeroPage _ => true
  | .zeroPageX _ => true
  | .zeroPageY _ => true
  | .absolute _ => true
  | .indirect _ => true
  | .absoluteX _ => true
  | .absoluteY _ => true
  | .indexedIndirect _ => true
  | .indirectIndexed _ => true
  | .relative d => decide (-128 ≤ d) && decide (d ≤ 127)

/-- The instruction can be encoded. -/
def Instr.wellFormed (i : Instr) : Bool := i.operand.wellFormed

end Sys2Proof
end

