-- ==== Sys2Proof/Decode.lean ====
section
/-! DEFINITION. The opcode table (30_encoding R126), the decoder (R123: a lookup by the whole opcode byte, total, the other 105 values
rejected by name) and, after it, the encoder. -/

namespace Sys2Proof

open Sys2Proof.Machine (word lo hi)

/-- Why a list of bytes is not an instruction. -/
inductive DecodeError where
  /-- There is no byte at all. -/
  | noBytes
  /-- The opcode byte has no table entry (30_encoding R128). -/
  | unknownOpcode (opcode : Byte)
  /-- The opcode has an entry but its operand bytes are missing. -/
  | missingOperand (opcode : Byte)
  deriving DecidableEq, Repr

/-- How a row's operand bytes make its instruction (30_encoding R121, R122). -/
inductive Form where
  | noOperand (i : Instr)
  | byteOperand (f : Byte → Instr)
  | wordOperand (f : Word → Instr)
  | offsetOperand (f : Int → Instr)

/-- One entry of the decoder's table (30_encoding R123, R126): the opcode, its mnemonic and mode, its default base cycle cost and
whether the page-cross penalty applies to it (70_reset_and_hazards R462; harness only), and its instruction. -/
structure Row where
  opcode   : Byte
  mnemonic : Mnemonic
  mode     : Mode
  cycles   : Nat
  penalty  : Bool
  form     : Form

/-- Rows 00 to 21 of the opcode table (30_encoding R126). -/
def opcodeRows0 : List Row := [
  ⟨0x00#8, .brk, .implied, 7, false, .noOperand .brk⟩,
  ⟨0x01#8, .ora, .indexedIndirect, 6, false, .byteOperand .oraIndX⟩,
  ⟨0x05#8, .ora, .zeroPage, 3, false, .byteOperand .oraZp⟩,
  ⟨0x06#8, .asl, .zeroPage, 5, false, .byteOperand .aslZp⟩,
  ⟨0x08#8, .php, .implied, 3, false, .noOperand .php⟩,
  ⟨0x09#8, .ora, .immediate, 2, false, .byteOperand .oraImm⟩,
  ⟨0x0A#8, .asl, .accumulator, 2, false, .noOperand .aslAcc⟩,
  ⟨0x0D#8, .ora, .absolute, 4, false, .wordOperand .oraAbs⟩,
  ⟨0x0E#8, .asl, .absolute, 6, false, .wordOperand .aslAbs⟩,
  ⟨0x10#8, .bpl, .relative, 2, false, .offsetOperand .bpl⟩,
  ⟨0x11#8, .ora, .indirectIndexed, 5, true, .byteOperand .oraIndY⟩,
  ⟨0x15#8, .ora, .zeroPageX, 4, false, .byteOperand .oraZpX⟩,
  ⟨0x16#8, .asl, .zeroPageX, 6, false, .byteOperand .aslZpX⟩,
  ⟨0x18#8, .clc, .implied, 2, false, .noOperand .clc⟩,
  ⟨0x19#8, .ora, .absoluteY, 4, true, .wordOperand .oraAbsY⟩,
  ⟨0x1D#8, .ora, .absoluteX, 4, true, .wordOperand .oraAbsX⟩,
  ⟨0x1E#8, .asl, .absoluteX, 7, false, .wordOperand .aslAbsX⟩,
  ⟨0x20#8, .jsr, .absolute, 6, false, .wordOperand .jsr⟩,
  ⟨0x21#8, .and, .indexedIndirect, 6, false, .byteOperand .andIndX⟩]

/-- Rows 24 to 41 of the opcode table (30_encoding R126). -/
def opcodeRows1 : List Row := [
  ⟨0x24#8, .bit, .zeroPage, 3, false, .byteOperand .bitZp⟩,
  ⟨0x25#8, .and, .zeroPage, 3, false, .byteOperand .andZp⟩,
  ⟨0x26#8, .rol, .zeroPage, 5, false, .byteOperand .rolZp⟩,
  ⟨0x28#8, .plp, .implied, 4, false, .noOperand .plp⟩,
  ⟨0x29#8, .and, .immediate, 2, false, .byteOperand .andImm⟩,
  ⟨0x2A#8, .rol, .accumulator, 2, false, .noOperand .rolAcc⟩,
  ⟨0x2C#8, .bit, .absolute, 4, false, .wordOperand .bitAbs⟩,
  ⟨0x2D#8, .and, .absolute, 4, false, .wordOperand .andAbs⟩,
  ⟨0x2E#8, .rol, .absolute, 6, false, .wordOperand .rolAbs⟩,
  ⟨0x30#8, .bmi, .relative, 2, false, .offsetOperand .bmi⟩,
  ⟨0x31#8, .and, .indirectIndexed, 5, true, .byteOperand .andIndY⟩,
  ⟨0x35#8, .and, .zeroPageX, 4, false, .byteOperand .andZpX⟩,
  ⟨0x36#8, .rol, .zeroPageX, 6, false, .byteOperand .rolZpX⟩,
  ⟨0x38#8, .sec, .implied, 2, false, .noOperand .sec⟩,
  ⟨0x39#8, .and, .absoluteY, 4, true, .wordOperand .andAbsY⟩,
  ⟨0x3D#8, .and, .absoluteX, 4, true, .wordOperand .andAbsX⟩,
  ⟨0x3E#8, .rol, .absoluteX, 7, false, .wordOperand .rolAbsX⟩,
  ⟨0x40#8, .rti, .implied, 6, false, .noOperand .rti⟩,
  ⟨0x41#8, .eor, .indexedIndirect, 6, false, .byteOperand .eorIndX⟩]

/-- Rows 45 to 65 of the opcode table (30_encoding R126). -/
def opcodeRows2 : List Row := [
  ⟨0x45#8, .eor, .zeroPage, 3, false, .byteOperand .eorZp⟩,
  ⟨0x46#8, .lsr, .zeroPage, 5, false, .byteOperand .lsrZp⟩,
  ⟨0x48#8, .pha, .implied, 3, false, .noOperand .pha⟩,
  ⟨0x49#8, .eor, .immediate, 2, false, .byteOperand .eorImm⟩,
  ⟨0x4A#8, .lsr, .accumulator, 2, false, .noOperand .lsrAcc⟩,
  ⟨0x4C#8, .jmp, .absolute, 3, false, .wordOperand .jmpAbs⟩,
  ⟨0x4D#8, .eor, .absolute, 4, false, .wordOperand .eorAbs⟩,
  ⟨0x4E#8, .lsr, .absolute, 6, false, .wordOperand .lsrAbs⟩,
  ⟨0x50#8, .bvc, .relative, 2, false, .offsetOperand .bvc⟩,
  ⟨0x51#8, .eor, .indirectIndexed, 5, true, .byteOperand .eorIndY⟩,
  ⟨0x55#8, .eor, .zeroPageX, 4, false, .byteOperand .eorZpX⟩,
  ⟨0x56#8, .lsr, .zeroPageX, 6, false, .byteOperand .lsrZpX⟩,
  ⟨0x58#8, .cli, .implied, 2, false, .noOperand .cli⟩,
  ⟨0x59#8, .eor, .absoluteY, 4, true, .wordOperand .eorAbsY⟩,
  ⟨0x5D#8, .eor, .absoluteX, 4, true, .wordOperand .eorAbsX⟩,
  ⟨0x5E#8, .lsr, .absoluteX, 7, false, .wordOperand .lsrAbsX⟩,
  ⟨0x60#8, .rts, .implied, 6, false, .noOperand .rts⟩,
  ⟨0x61#8, .adc, .indexedIndirect, 6, false, .byteOperand .adcIndX⟩,
  ⟨0x65#8, .adc, .zeroPage, 3, false, .byteOperand .adcZp⟩]

/-- Rows 66 to 86 of the opcode table (30_encoding R126). -/
def opcodeRows3 : List Row := [
  ⟨0x66#8, .ror, .zeroPage, 5, false, .byteOperand .rorZp⟩,
  ⟨0x68#8, .pla, .implied, 4, false, .noOperand .pla⟩,
  ⟨0x69#8, .adc, .immediate, 2, false, .byteOperand .adcImm⟩,
  ⟨0x6A#8, .ror, .accumulator, 2, false, .noOperand .rorAcc⟩,
  ⟨0x6C#8, .jmp, .indirect, 5, false, .wordOperand .jmpInd⟩,
  ⟨0x6D#8, .adc, .absolute, 4, false, .wordOperand .adcAbs⟩,
  ⟨0x6E#8, .ror, .absolute, 6, false, .wordOperand .rorAbs⟩,
  ⟨0x70#8, .bvs, .relative, 2, false, .offsetOperand .bvs⟩,
  ⟨0x71#8, .adc, .indirectIndexed, 5, true, .byteOperand .adcIndY⟩,
  ⟨0x75#8, .adc, .zeroPageX, 4, false, .byteOperand .adcZpX⟩,
  ⟨0x76#8, .ror, .zeroPageX, 6, false, .byteOperand .rorZpX⟩,
  ⟨0x78#8, .sei, .implied, 2, false, .noOperand .sei⟩,
  ⟨0x79#8, .adc, .absoluteY, 4, true, .wordOperand .adcAbsY⟩,
  ⟨0x7D#8, .adc, .absoluteX, 4, true, .wordOperand .adcAbsX⟩,
  ⟨0x7E#8, .ror, .absoluteX, 7, false, .wordOperand .rorAbsX⟩,
  ⟨0x81#8, .sta, .indexedIndirect, 6, false, .byteOperand .staIndX⟩,
  ⟨0x84#8, .sty, .zeroPage, 3, false, .byteOperand .styZp⟩,
  ⟨0x85#8, .sta, .zeroPage, 3, false, .byteOperand .staZp⟩,
  ⟨0x86#8, .stx, .zeroPage, 3, false, .byteOperand .stxZp⟩]

/-- Rows 88 to A5 of the opcode table (30_encoding R126). -/
def opcodeRows4 : List Row := [
  ⟨0x88#8, .dey, .implied, 2, false, .noOperand .dey⟩,
  ⟨0x8A#8, .txa, .implied, 2, false, .noOperand .txa⟩,
  ⟨0x8C#8, .sty, .absolute, 4, false, .wordOperand .styAbs⟩,
  ⟨0x8D#8, .sta, .absolute, 4, false, .wordOperand .staAbs⟩,
  ⟨0x8E#8, .stx, .absolute, 4, false, .wordOperand .stxAbs⟩,
  ⟨0x90#8, .bcc, .relative, 2, false, .offsetOperand .bcc⟩,
  ⟨0x91#8, .sta, .indirectIndexed, 6, false, .byteOperand .staIndY⟩,
  ⟨0x94#8, .sty, .zeroPageX, 4, false, .byteOperand .styZpX⟩,
  ⟨0x95#8, .sta, .zeroPageX, 4, false, .byteOperand .staZpX⟩,
  ⟨0x96#8, .stx, .zeroPageY, 4, false, .byteOperand .stxZpY⟩,
  ⟨0x98#8, .tya, .implied, 2, false, .noOperand .tya⟩,
  ⟨0x99#8, .sta, .absoluteY, 5, false, .wordOperand .staAbsY⟩,
  ⟨0x9A#8, .txs, .implied, 2, false, .noOperand .txs⟩,
  ⟨0x9D#8, .sta, .absoluteX, 5, false, .wordOperand .staAbsX⟩,
  ⟨0xA0#8, .ldy, .immediate, 2, false, .byteOperand .ldyImm⟩,
  ⟨0xA1#8, .lda, .indexedIndirect, 6, false, .byteOperand .ldaIndX⟩,
  ⟨0xA2#8, .ldx, .immediate, 2, false, .byteOperand .ldxImm⟩,
  ⟨0xA4#8, .ldy, .zeroPage, 3, false, .byteOperand .ldyZp⟩,
  ⟨0xA5#8, .lda, .zeroPage, 3, false, .byteOperand .ldaZp⟩]

/-- Rows A6 to C0 of the opcode table (30_encoding R126). -/
def opcodeRows5 : List Row := [
  ⟨0xA6#8, .ldx, .zeroPage, 3, false, .byteOperand .ldxZp⟩,
  ⟨0xA8#8, .tay, .implied, 2, false, .noOperand .tay⟩,
  ⟨0xA9#8, .lda, .immediate, 2, false, .byteOperand .ldaImm⟩,
  ⟨0xAA#8, .tax, .implied, 2, false, .noOperand .tax⟩,
  ⟨0xAC#8, .ldy, .absolute, 4, false, .wordOperand .ldyAbs⟩,
  ⟨0xAD#8, .lda, .absolute, 4, false, .wordOperand .ldaAbs⟩,
  ⟨0xAE#8, .ldx, .absolute, 4, false, .wordOperand .ldxAbs⟩,
  ⟨0xB0#8, .bcs, .relative, 2, false, .offsetOperand .bcs⟩,
  ⟨0xB1#8, .lda, .indirectIndexed, 5, true, .byteOperand .ldaIndY⟩,
  ⟨0xB4#8, .ldy, .zeroPageX, 4, false, .byteOperand .ldyZpX⟩,
  ⟨0xB5#8, .lda, .zeroPageX, 4, false, .byteOperand .ldaZpX⟩,
  ⟨0xB6#8, .ldx, .zeroPageY, 4, false, .byteOperand .ldxZpY⟩,
  ⟨0xB8#8, .clv, .implied, 2, false, .noOperand .clv⟩,
  ⟨0xB9#8, .lda, .absoluteY, 4, true, .wordOperand .ldaAbsY⟩,
  ⟨0xBA#8, .tsx, .implied, 2, false, .noOperand .tsx⟩,
  ⟨0xBC#8, .ldy, .absoluteX, 4, true, .wordOperand .ldyAbsX⟩,
  ⟨0xBD#8, .lda, .absoluteX, 4, true, .wordOperand .ldaAbsX⟩,
  ⟨0xBE#8, .ldx, .absoluteY, 4, true, .wordOperand .ldxAbsY⟩,
  ⟨0xC0#8, .cpy, .immediate, 2, false, .byteOperand .cpyImm⟩]

/-- Rows C1 to E0 of the opcode table (30_encoding R126). -/
def opcodeRows6 : List Row := [
  ⟨0xC1#8, .cmp, .indexedIndirect, 6, false, .byteOperand .cmpIndX⟩,
  ⟨0xC4#8, .cpy, .zeroPage, 3, false, .byteOperand .cpyZp⟩,
  ⟨0xC5#8, .cmp, .zeroPage, 3, false, .byteOperand .cmpZp⟩,
  ⟨0xC6#8, .dec, .zeroPage, 5, false, .byteOperand .decZp⟩,
  ⟨0xC8#8, .iny, .implied, 2, false, .noOperand .iny⟩,
  ⟨0xC9#8, .cmp, .immediate, 2, false, .byteOperand .cmpImm⟩,
  ⟨0xCA#8, .dex, .implied, 2, false, .noOperand .dex⟩,
  ⟨0xCC#8, .cpy, .absolute, 4, false, .wordOperand .cpyAbs⟩,
  ⟨0xCD#8, .cmp, .absolute, 4, false, .wordOperand .cmpAbs⟩,
  ⟨0xCE#8, .dec, .absolute, 6, false, .wordOperand .decAbs⟩,
  ⟨0xD0#8, .bne, .relative, 2, false, .offsetOperand .bne⟩,
  ⟨0xD1#8, .cmp, .indirectIndexed, 5, true, .byteOperand .cmpIndY⟩,
  ⟨0xD5#8, .cmp, .zeroPageX, 4, false, .byteOperand .cmpZpX⟩,
  ⟨0xD6#8, .dec, .zeroPageX, 6, false, .byteOperand .decZpX⟩,
  ⟨0xD8#8, .cld, .implied, 2, false, .noOperand .cld⟩,
  ⟨0xD9#8, .cmp, .absoluteY, 4, true, .wordOperand .cmpAbsY⟩,
  ⟨0xDD#8, .cmp, .absoluteX, 4, true, .wordOperand .cmpAbsX⟩,
  ⟨0xDE#8, .dec, .absoluteX, 7, false, .wordOperand .decAbsX⟩,
  ⟨0xE0#8, .cpx, .immediate, 2, false, .byteOperand .cpxImm⟩]

/-- Rows E1 to FE of the opcode table (30_encoding R126). -/
def opcodeRows7 : List Row := [
  ⟨0xE1#8, .sbc, .indexedIndirect, 6, false, .byteOperand .sbcIndX⟩,
  ⟨0xE4#8, .cpx, .zeroPage, 3, false, .byteOperand .cpxZp⟩,
  ⟨0xE5#8, .sbc, .zeroPage, 3, false, .byteOperand .sbcZp⟩,
  ⟨0xE6#8, .inc, .zeroPage, 5, false, .byteOperand .incZp⟩,
  ⟨0xE8#8, .inx, .implied, 2, false, .noOperand .inx⟩,
  ⟨0xE9#8, .sbc, .immediate, 2, false, .byteOperand .sbcImm⟩,
  ⟨0xEA#8, .nop, .implied, 2, false, .noOperand .nop⟩,
  ⟨0xEC#8, .cpx, .absolute, 4, false, .wordOperand .cpxAbs⟩,
  ⟨0xED#8, .sbc, .absolute, 4, false, .wordOperand .sbcAbs⟩,
  ⟨0xEE#8, .inc, .absolute, 6, false, .wordOperand .incAbs⟩,
  ⟨0xF0#8, .beq, .relative, 2, false, .offsetOperand .beq⟩,
  ⟨0xF1#8, .sbc, .indirectIndexed, 5, true, .byteOperand .sbcIndY⟩,
  ⟨0xF5#8, .sbc, .zeroPageX, 4, false, .byteOperand .sbcZpX⟩,
  ⟨0xF6#8, .inc, .zeroPageX, 6, false, .byteOperand .incZpX⟩,
  ⟨0xF8#8, .sed, .implied, 2, false, .noOperand .sed⟩,
  ⟨0xF9#8, .sbc, .absoluteY, 4, true, .wordOperand .sbcAbsY⟩,
  ⟨0xFD#8, .sbc, .absoluteX, 4, true, .wordOperand .sbcAbsX⟩,
  ⟨0xFE#8, .inc, .absoluteX, 7, false, .wordOperand .incAbsX⟩]

/-- The 151 rows of the opcode table (30_encoding R126), in its order. -/
def opcodeTable : List Row :=
  opcodeRows0 ++
  opcodeRows1 ++
  opcodeRows2 ++
  opcodeRows3 ++
  opcodeRows4 ++
  opcodeRows5 ++
  opcodeRows6 ++
  opcodeRows7

/-- The entry of an opcode byte, if it has one (30_encoding R123). -/
def lookupOpcode (op : Byte) : Option Row := opcodeTable.find? fun r => r.opcode == op

/-- The operand bytes put into the row's instruction, with the bytes left over (30_encoding R121, R122): an address is
little-endian, a branch offset is the signed value of its byte. -/
def Form.fill (op : Byte) : Form → List Byte → Except DecodeError (Instr × List Byte)
  | .noOperand i, rest => .ok (i, rest)
  | .byteOperand f, b :: rest => .ok (f b, rest)
  | .byteOperand _, [] => .error (.missingOperand op)
  | .wordOperand f, l :: h :: rest => .ok (f (word h l), rest)
  | .wordOperand _, [_] => .error (.missingOperand op)
  | .wordOperand _, [] => .error (.missingOperand op)
  | .offsetOperand f, b :: rest => .ok (f b.toInt, rest)
  | .offsetOperand _, [] => .error (.missingOperand op)

/-- The decoder (30_encoding R123, R124): the instruction at the head of a list of bytes and the bytes after it. -/
def decode : List Byte → Except DecodeError (Instr × List Byte)
  | [] => .error .noBytes
  | op :: rest =>
    match lookupOpcode op with
    | none => .error (.unknownOpcode op)
    | some row => row.form.fill op rest

/-- The opcode byte of an instruction (30_encoding R126). -/
def Instr.opcode : Instr → Byte
  | .brk => 0x00#8
  | .oraIndX _ => 0x01#8
  | .oraZp _ => 0x05#8
  | .aslZp _ => 0x06#8
  | .php => 0x08#8
  | .oraImm _ => 0x09#8
  | .aslAcc => 0x0A#8
  | .oraAbs _ => 0x0D#8
  | .aslAbs _ => 0x0E#8
  | .bpl _ => 0x10#8
  | .oraIndY _ => 0x11#8
  | .oraZpX _ => 0x15#8
  | .aslZpX _ => 0x16#8
  | .clc => 0x18#8
  | .oraAbsY _ => 0x19#8
  | .oraAbsX _ => 0x1D#8
  | .aslAbsX _ => 0x1E#8
  | .jsr _ => 0x20#8
  | .andIndX _ => 0x21#8
  | .bitZp _ => 0x24#8
  | .andZp _ => 0x25#8
  | .rolZp _ => 0x26#8
  | .plp => 0x28#8
  | .andImm _ => 0x29#8
  | .rolAcc => 0x2A#8
  | .bitAbs _ => 0x2C#8
  | .andAbs _ => 0x2D#8
  | .rolAbs _ => 0x2E#8
  | .bmi _ => 0x30#8
  | .andIndY _ => 0x31#8
  | .andZpX _ => 0x35#8
  | .rolZpX _ => 0x36#8
  | .sec => 0x38#8
  | .andAbsY _ => 0x39#8
  | .andAbsX _ => 0x3D#8
  | .rolAbsX _ => 0x3E#8
  | .rti => 0x40#8
  | .eorIndX _ => 0x41#8
  | .eorZp _ => 0x45#8
  | .lsrZp _ => 0x46#8
  | .pha => 0x48#8
  | .eorImm _ => 0x49#8
  | .lsrAcc => 0x4A#8
  | .jmpAbs _ => 0x4C#8
  | .eorAbs _ => 0x4D#8
  | .lsrAbs _ => 0x4E#8
  | .bvc _ => 0x50#8
  | .eorIndY _ => 0x51#8
  | .eorZpX _ => 0x55#8
  | .lsrZpX _ => 0x56#8
  | .cli => 0x58#8
  | .eorAbsY _ => 0x59#8
  | .eorAbsX _ => 0x5D#8
  | .lsrAbsX _ => 0x5E#8
  | .rts => 0x60#8
  | .adcIndX _ => 0x61#8
  | .adcZp _ => 0x65#8
  | .rorZp _ => 0x66#8
  | .pla => 0x68#8
  | .adcImm _ => 0x69#8
  | .rorAcc => 0x6A#8
  | .jmpInd _ => 0x6C#8
  | .adcAbs _ => 0x6D#8
  | .rorAbs _ => 0x6E#8
  | .bvs _ => 0x70#8
  | .adcIndY _ => 0x71#8
  | .adcZpX _ => 0x75#8
  | .rorZpX _ => 0x76#8
  | .sei => 0x78#8
  | .adcAbsY _ => 0x79#8
  | .adcAbsX _ => 0x7D#8
  | .rorAbsX _ => 0x7E#8
  | .staIndX _ => 0x81#8
  | .styZp _ => 0x84#8
  | .staZp _ => 0x85#8
  | .stxZp _ => 0x86#8
  | .dey => 0x88#8
  | .txa => 0x8A#8
  | .styAbs _ => 0x8C#8
  | .staAbs _ => 0x8D#8
  | .stxAbs _ => 0x8E#8
  | .bcc _ => 0x90#8
  | .staIndY _ => 0x91#8
  | .styZpX _ => 0x94#8
  | .staZpX _ => 0x95#8
  | .stxZpY _ => 0x96#8
  | .tya => 0x98#8
  | .staAbsY _ => 0x99#8
  | .txs => 0x9A#8
  | .staAbsX _ => 0x9D#8
  | .ldyImm _ => 0xA0#8
  | .ldaIndX _ => 0xA1#8
  | .ldxImm _ => 0xA2#8
  | .ldyZp _ => 0xA4#8
  | .ldaZp _ => 0xA5#8
  | .ldxZp _ => 0xA6#8
  | .tay => 0xA8#8
  | .ldaImm _ => 0xA9#8
  | .tax => 0xAA#8
  | .ldyAbs _ => 0xAC#8
  | .ldaAbs _ => 0xAD#8
  | .ldxAbs _ => 0xAE#8
  | .bcs _ => 0xB0#8
  | .ldaIndY _ => 0xB1#8
  | .ldyZpX _ => 0xB4#8
  | .ldaZpX _ => 0xB5#8
  | .ldxZpY _ => 0xB6#8
  | .clv => 0xB8#8
  | .ldaAbsY _ => 0xB9#8
  | .tsx => 0xBA#8
  | .ldyAbsX _ => 0xBC#8
  | .ldaAbsX _ => 0xBD#8
  | .ldxAbsY _ => 0xBE#8
  | .cpyImm _ => 0xC0#8
  | .cmpIndX _ => 0xC1#8
  | .cpyZp _ => 0xC4#8
  | .cmpZp _ => 0xC5#8
  | .decZp _ => 0xC6#8
  | .iny => 0xC8#8
  | .cmpImm _ => 0xC9#8
  | .dex => 0xCA#8
  | .cpyAbs _ => 0xCC#8
  | .cmpAbs _ => 0xCD#8
  | .decAbs _ => 0xCE#8
  | .bne _ => 0xD0#8
  | .cmpIndY _ => 0xD1#8
  | .cmpZpX _ => 0xD5#8
  | .decZpX _ => 0xD6#8
  | .cld => 0xD8#8
  | .cmpAbsY _ => 0xD9#8
  | .cmpAbsX _ => 0xDD#8
  | .decAbsX _ => 0xDE#8
  | .cpxImm _ => 0xE0#8
  | .sbcIndX _ => 0xE1#8
  | .cpxZp _ => 0xE4#8
  | .sbcZp _ => 0xE5#8
  | .incZp _ => 0xE6#8
  | .inx => 0xE8#8
  | .sbcImm _ => 0xE9#8
  | .nop => 0xEA#8
  | .cpxAbs _ => 0xEC#8
  | .sbcAbs _ => 0xED#8
  | .incAbs _ => 0xEE#8
  | .beq _ => 0xF0#8
  | .sbcIndY _ => 0xF1#8
  | .sbcZpX _ => 0xF5#8
  | .incZpX _ => 0xF6#8
  | .sed => 0xF8#8
  | .sbcAbsY _ => 0xF9#8
  | .sbcAbsX _ => 0xFD#8
  | .incAbsX _ => 0xFE#8

/-- The operand bytes in fetch order (30_encoding R121, R122): low byte before high byte; a branch offset as its 8-bit two's
complement. -/
def Operand.bytes : Operand → List Byte
  | .implied => []
  | .accumulator => []
  | .immediate n => [n]
  | .zeroPage n => [n]
  | .zeroPageX n => [n]
  | .zeroPageY n => [n]
  | .absolute w => [lo w, hi w]
  | .indirect w => [lo w, hi w]
  | .absoluteX w => [lo w, hi w]
  | .absoluteY w => [lo w, hi w]
  | .indexedIndirect n => [n]
  | .indirectIndexed n => [n]
  | .relative d => [BitVec.ofInt 8 d]

/-- The encoder: the bytes of an instruction in fetch order (30_encoding R121). -/
def encode (i : Instr) : List Byte := i.opcode :: i.operand.bytes

/-- Byte `k` of an instruction whose bits are the low `nbits` of `w`, bit 0 being the least significant bit of the first byte;
the bits above `nbits` are 0. -/
def tableByte (nbits w k : Nat) : Byte := BitVec.ofNat 8 (w % 2 ^ nbits / 2 ^ (8 * k))

/-- The three bytes such an instruction is stored as, at rising addresses; 3 is the longest instruction (30_encoding R120). -/
def tableBytes (nbits w : Nat) : List Byte := [tableByte nbits w 0, tableByte nbits w 1, tableByte nbits w 2]

/-- The instruction the decoder reads from an instruction word numbered as spec/opcode_table.json numbers it. -/
def decodeTableWord (nbits w : Nat) : Option Instr :=
  match decode (tableBytes nbits w) with
  | .ok (i, _) => some i
  | .error _ => none

end Sys2Proof
end

