-- ==== Sys2Proof/Config.lean ====
section
/-! DEFINITION. What is fixed for this machine (spec 00_scope R9) and what the spec leaves open as a parameter (R10). An open
parameter is an opaque constant: nothing in Lean can evaluate it, so a claim about it holds for every value. -/

namespace Sys2Proof.Config

/-- What a byte of memory that is not listed in State reads as (20_memory R82: the source's store is "zero-initialized").
DESIGN CHOICE (log 2): the spec's default for the open parameter INITIAL_MEMORY (D18); unsafe. -/
def unlistedByte : Byte := 0x00#8

/-- The NMI vector (R9, 20_memory R93). -/
def nmiVector : Word := 0xFFFA#16

/-- The reset vector (R9, 20_memory R93). -/
def resetVector : Word := 0xFFFC#16

/-- The IRQ and BRK vector (R9, 20_memory R93). -/
def irqVector : Word := 0xFFFE#16

/-- The base of the stack page (R9, 10_state R44). -/
def stackBase : Word := 0x0100#16

/-- SP after power-up (R9, 10_state R59). -/
def powerUpSp : Byte := 0xFD#8

/-- An interval of addresses, both ends included. -/
structure AddressRange where
  first : Word
  last  : Word
  deriving DecidableEq, Repr

/-- POWERUP_CLEAR_RANGE (R10, 70_reset_and_hazards R451, D17): the range the platform zero-fills at power-up, possibly none.
Open: an opaque constant (log 5). -/
opaque powerUpClearRange : Option AddressRange

/-- The addresses of the platform's device registers, the only ones RESET_PLATFORM_ACTION may change (70_reset_and_hazards R453).
Open: an opaque constant (log 6). -/
opaque deviceRegisters : List Word

/-- What RESET_PLATFORM_ACTION leaves in a device register, given the memory before it (70_reset_and_hazards R453, D17).
Open: an opaque constant (log 6); the identity is one of its values. -/
opaque resetDeviceByte : List Host.Cell → Word → Byte

end Sys2Proof.Config
end

