-- ==== Sys2Proof/Machine/State.lean ====
section
/-! DEFINITION. The state of the core (spec 10_state), the reasons a step can stop, and the state after reset. Everything is plain
data; 20_memory's 64 KiB store is a list of address and byte pairs in one canonical form (Machine/Ops.lean, Memory.wf). -/

namespace Sys2Proof.Machine

/-- The six stored bits of the status register P (10_state R46). Bits 5 and 4 of P are not stored (90_conflicts C6). -/
structure Flags where
  /-- Negative, bit 7 (R54). -/
  n : Bool
  /-- Overflow, bit 6 (R53). -/
  v : Bool
  /-- Decimal mode, bit 3 (R52). -/
  d : Bool
  /-- Interrupt disable, bit 2 (R51). -/
  i : Bool
  /-- Zero, bit 1 (R50). -/
  z : Bool
  /-- Carry, bit 0 (R49). -/
  c : Bool
  deriving DecidableEq, Repr

/-- What the environment presents at one instruction boundary (00_scope R11): the events `power_on`, `reset` and `nmi`, and the level
of `irq`. -/
structure Inputs where
  powerOn : Bool
  reset   : Bool
  nmi     : Bool
  irq     : Bool
  deriving DecidableEq, Repr

/-- No event, and `irq` low. -/
def Inputs.quiet : Inputs := ⟨false, false, false, false⟩

/-- What a fault records (60_exceptions R400, R401): the opcode byte without a table entry and its address. -/
inductive FaultRecord where
  | unknownOpcode (opcode : Byte) (address : Word)
  deriving DecidableEq, Repr

/-- The memory: listed addresses rising, each with a byte that differs from `Config.unlistedByte` (20_memory R80, R82). -/
abbrev Memory := List Host.Cell

/-- The state of the core at an instruction boundary (10_state R40 to R58). -/
structure State where
  /-- The accumulator A (R41). -/
  a : Byte
  /-- The index register X (R42). -/
  x : Byte
  /-- The index register Y (R43). -/
  y : Byte
  /-- The stack pointer SP (R44). -/
  sp : Byte
  /-- The program counter PC (R45). -/
  pc : Word
  /-- The stored bits of P (R46). -/
  flags : Flags
  /-- The 64 KiB store (20_memory R80). -/
  mem : Memory
  /-- An unknown-opcode fault has occurred (R58). -/
  halted : Bool
  /-- The record of that fault (60_exceptions R400), kept until a reset or power-up (R403; log 7). -/
  faultRecord : Option FaultRecord
  /-- An NMI edge has arrived and has not yet been taken (R58). -/
  nmiPending : Bool
  /-- The environment's inputs at the coming boundaries, the next one first; all inputs are low when the list is empty. The MODEL's
  own field: it stands for the `irq` and `nmi` schedules of 00_scope R10 and the event ports of R11 (DESIGN CHOICE, log 3). -/
  inputs : List Inputs
  deriving DecidableEq, Repr

/-- Why the machine stops. Each reason carries the state it leaves, so that a reset from there can be stated. -/
inductive Fault where
  /-- Raised by the instruction step on an opcode without a table entry (60_exceptions R400): `left` is the state with `halted` set,
  the record kept and PC at the opcode. Safe: the spec's own fault outcome; the real chip goes on (I1). -/
  | unknownOpcode (opcode : Byte) (address : Word) (left : State)
  /-- Raised by the boundary poll on a halted core when neither power-up nor reset is requested (60_exceptions R403, R413: "no
  step"). Safe: a halted core is stuck (I13). -/
  | halted (left : State)
  deriving DecidableEq, Repr

/-- Why an instruction has no meaning. The spec refuses nothing (93_implementation_defined, end of part 1). -/
inductive Refusal where
  /-- Raised by no arm of `exec`: every instruction has its meaning. It would be safe: the machine stops. -/
  | notModelled (mnemonic : String)
  deriving DecidableEq, Repr

/-- What a step or an instruction answers (00_scope R13). -/
abbrev Result := Host.Outcome State Fault Refusal

/-- P after power-up: I is 1, the other stored bits 0, so the view is 0x34 (70_reset_and_hazards R450). -/
def powerUpFlags : Flags := { n := false, v := false, d := false, i := true, z := false, c := false }

/-- The machine right after reset: the state after power-up (70_reset_and_hazards R450, R454; 10_state R59, power-up column) of a
store that is all zeros, so that the reset vector holds 0x0000 (R455 item 1; log 1). -/
def State.reset : State where
  a := 0x00#8
  x := 0x00#8
  y := 0x00#8
  sp := Config.powerUpSp
  pc := 0x0000#16
  flags := powerUpFlags
  mem := []
  halted := false
  faultRecord := none
  nmiPending := false
  inputs := []

end Sys2Proof.Machine
end

