-- ==== Sys2Proof/Machine/Flags.lean ====
section
/-! DEFINITION. The status register's byte views (10_state R47, R48) and the ALU and flag engine (41_alu_flags): pure functions. -/

namespace Sys2Proof.Machine

/-- The byte view of P (10_state R47): bits 5 and 4 read as 1. -/
def Flags.view (f : Flags) : Byte :=
  (flagBit f.n <<< 7) ||| (flagBit f.v <<< 6) ||| (1#8 <<< 5) ||| (1#8 <<< 4) ||| (flagBit f.d <<< 3) ||| (flagBit f.i <<< 2) |||
    (flagBit f.z <<< 1) ||| flagBit f.c

/-- Loading P from a byte, as PLP and RTI do (10_state R47): bits 5 and 4 are discarded. -/
def Flags.ofByte (b : Byte) : Flags where
  n := b.getLsbD 7
  v := b.getLsbD 6
  d := b.getLsbD 3
  i := b.getLsbD 2
  z := b.getLsbD 1
  c := b.getLsbD 0

/-- The status byte PHP and BRK push, `P | 0x30` (10_state R48). -/
def Flags.pushedByInstruction (f : Flags) : Byte := f.view ||| 0x30#8

/-- The status byte IRQ and NMI entry push, `(P | 0x20) & 0xEF` (10_state R48). -/
def Flags.pushedByInterrupt (f : Flags) : Byte := (f.view ||| 0x20#8) &&& 0xEF#8

/-- `set_nz` (41_alu_flags R200). -/
def Flags.setNZ (f : Flags) (v : Byte) : Flags := { f with n := v.getLsbD 7, z := decide (v = 0#8) }

/-- A byte result with the carry and overflow an operation computes. -/
structure SumResult where
  value    : Byte
  carry    : Bool
  overflow : Bool
  deriving DecidableEq, Repr

/-- A byte result with the bit an operation shifts out. -/
structure ShiftResult where
  value : Byte
  carry : Bool
  deriving DecidableEq, Repr

/-- `Add(a, m, c)` (41_alu_flags R202): the 9-bit sum, its low byte, its bit 8, and the sign-mismatch overflow. Binary whatever the
decimal flag (R212). -/
def add (a m : Byte) (c : Bool) : SumResult :=
  let s := a.toNat + m.toNat + c.toNat
  let r := BitVec.ofNat 8 s
  { value := r, carry := s.testBit 8, overflow := ((m ^^^ r) &&& (a ^^^ r)).getLsbD 7 }

/-- `Sub(a, m, c)` (41_alu_flags R204), with borrow `1 - c`. -/
def sub (a m : Byte) (c : Bool) : SumResult :=
  let s : Int := a.toNat - m.toNat - (1 - c.toNat)
  let r := BitVec.ofInt 8 s
  { value := r, carry := decide (0 ≤ s), overflow := ((a ^^^ m) &&& (a ^^^ r)).getLsbD 7 }

/-- `Compare(r, m)` (41_alu_flags R206): no incoming borrow, V not written. -/
def Flags.compare (f : Flags) (r m : Byte) : Flags :=
  { f with c := decide (m.toNat ≤ r.toNat), z := decide (r = m), n := (r - m).getLsbD 7 }

/-- `BitTest(a, m)` (41_alu_flags R207). -/
def Flags.bitTest (f : Flags) (a m : Byte) : Flags :=
  { f with v := m.getLsbD 6, n := m.getLsbD 7, z := decide (a &&& m = 0#8) }

/-- `Asl(v)` (41_alu_flags R209). -/
def shiftLeft (v : Byte) : ShiftResult := { value := v <<< 1, carry := v.getLsbD 7 }

/-- `Lsr(v)` (41_alu_flags R209). -/
def shiftRight (v : Byte) : ShiftResult := { value := v >>> 1, carry := v.getLsbD 0 }

/-- `Rol(v, c)` (41_alu_flags R209). -/
def rotateLeft (v : Byte) (c : Bool) : ShiftResult := { value := (v <<< 1) ||| flagBit c, carry := v.getLsbD 7 }

/-- `Ror(v, c)` (41_alu_flags R209). -/
def rotateRight (v : Byte) (c : Bool) : ShiftResult := { value := (v >>> 1) ||| (flagBit c <<< 7), carry := v.getLsbD 0 }

/-- `Inc(v)` (41_alu_flags R210). -/
def increment (v : Byte) : Byte := v + 1#8

/-- `Dec(v)` (41_alu_flags R210). -/
def decrement (v : Byte) : Byte := v - 1#8

end Sys2Proof.Machine
end

