-- ==== Sys2Proof/Machine/Ops.lean ====
section
/-! DEFINITION. The named operations over memory, registers, the stack, fetch and exceptions. Every meaning is written over these. -/

namespace Sys2Proof.Machine

/-! ### Memory (20_memory) -/

/-- The byte at a listed address, or what an unlisted one reads as. -/
def Memory.lookup : Memory → Nat → Byte
  | [], _ => Config.unlistedByte
  | (k, v) :: rest, a => if k = a then v else Memory.lookup rest a

/-- `Read8(a)`: one byte read (00_scope R11, R17; 20_memory R82). -/
def Memory.read (m : Memory) (a : Word) : Byte := Memory.lookup m a.toNat

/-- A cell put before the first listed address above it. -/
def Memory.place (a : Nat) (v : Byte) : Memory → Memory
  | [] => [(a, v)]
  | (k, w) :: rest => if a < k then (a, v) :: (k, w) :: rest else (k, w) :: Memory.place a v rest

/-- The memory without address `a`, which then reads as unlisted. -/
def Memory.forget (m : Memory) (a : Nat) : Memory := m.filter fun cell => decide (cell.1 ≠ a)

/-- `Write8(a, v)`: one byte write (00_scope R11, R17; 20_memory R82). Writing what an unlisted address reads as removes the entry. -/
def Memory.write (m : Memory) (a : Word) (v : Byte) : Memory :=
  if v = Config.unlistedByte then m.forget a.toNat else Memory.place a.toNat v (m.forget a.toNat)

/-- Every listed address is at least `low` and below 65536, the addresses rise strictly, and no byte equals what an unlisted
address reads as. -/
def Memory.wfFrom : Nat → Memory → Bool
  | _, [] => true
  | low, (k, v) :: rest =>
    decide (low ≤ k) && decide (k < 65536) && decide (v ≠ Config.unlistedByte) && Memory.wfFrom (k + 1) rest

/-- The canonical form of a memory: equal contents are equal lists. -/
def Memory.wf (m : Memory) : Bool := Memory.wfFrom 0 m

/-- `MemRead(a, 2)`: the linear little-endian word (20_memory R84, 90_conflicts C1). -/
def Memory.readWord (m : Memory) (a : Word) : Word := word (m.read (a + 1#16)) (m.read a)

/-- `MemReadPW(a)`: the word whose high byte stays in the page of `a` (20_memory R85); JMP indirect only. -/
def Memory.readWordPageWrap (m : Memory) (a : Word) : Word :=
  word (m.read ((a &&& 0xFF00#16) ||| ((a + 1#16) &&& 0x00FF#16))) (m.read a)

/-- `MemReadZP(z)`: the word at a zero-page address, both bytes in page 0 (20_memory R86). -/
def Memory.readWordZeroPage (m : Memory) (z : Byte) : Word := word (m.read (zext16 (z + 1#8))) (m.read (zext16 z))

/-- The memory with every address of a range holding 0 (70_reset_and_hazards R451); 0 is what an unlisted address reads as. -/
def Memory.zeroFill (m : Memory) (r : Config.AddressRange) : Memory :=
  m.filter fun cell => !(decide (r.first.toNat ≤ cell.1) && decide (cell.1 ≤ r.last.toNat))

/-- The memory with each of the listed device registers holding what `f` gives it (70_reset_and_hazards R453). -/
def Memory.writeEach (f : Word → Byte) : List Word → Memory → Memory
  | [], m => m
  | a :: rest, m => Memory.writeEach f rest (m.write a (f a))

/-! ### Registers (10_state) -/

/-- The state with `a` replaced. -/
def State.setA (s : State) (v : Byte) : State := { s with a := v }

/-- The state with `x` replaced. -/
def State.setX (s : State) (v : Byte) : State := { s with x := v }

/-- The state with `y` replaced. -/
def State.setY (s : State) (v : Byte) : State := { s with y := v }

/-- The state with `sp` replaced. -/
def State.setSp (s : State) (v : Byte) : State := { s with sp := v }

/-- The state with `pc` replaced. -/
def State.setPc (s : State) (v : Word) : State := { s with pc := v }

/-- The state with `flags` replaced. -/
def State.setFlags (s : State) (v : Flags) : State := { s with flags := v }

/-- The state with `mem` replaced. -/
def State.setMem (s : State) (v : Memory) : State := { s with mem := v }

/-- The state after `set_nz(v)` (41_alu_flags R200). -/
def State.setNZ (s : State) (v : Byte) : State := s.setFlags (s.flags.setNZ v)

/-- What a host sees of the registers (00_scope R11, 10_state R47): A, X, Y, SP, PC and the view of P. -/
structure RegisterView where
  a  : Byte
  x  : Byte
  y  : Byte
  sp : Byte
  pc : Word
  p  : Byte
  deriving DecidableEq, Repr

/-- The register view output (00_scope R11). -/
def State.registerView (s : State) : RegisterView :=
  { a := s.a, x := s.x, y := s.y, sp := s.sp, pc := s.pc, p := s.flags.view }

/-- The numeric code of a fault (60_exceptions R401). -/
def FaultRecord.code : FaultRecord → Nat
  | .unknownOpcode _ _ => 1

/-! ### Memory accesses of the core -/

/-- `MemRead(a, 1)` (00_scope R17). -/
def State.read8 (s : State) (a : Word) : Byte := s.mem.read a

/-- `MemWrite(a, 1, v)` (00_scope R17). -/
def State.write8 (s : State) (a : Word) (v : Byte) : State := s.setMem (s.mem.write a v)

/-! ### Fetch (40_addressing_modes R160, R161) -/

/-- The bytes at PC, PC + 1 and PC + 2, wrapping (10_state R45): the longest instruction. The decoder uses as many as the opcode
takes, and a fetch has no side effect (20_memory R91). -/
def State.fetchBytes (s : State) : List Byte := [s.read8 s.pc, s.read8 (s.pc + 1#16), s.read8 (s.pc + 2#16)]

/-- PC moved past an instruction of `n` bytes, wrapping (40_addressing_modes R178). -/
def State.advancePc (s : State) (n : Nat) : State := s.setPc (s.pc + BitVec.ofNat 16 n)

/-! ### The stack (47_stack) -/

/-- The address a stack pointer names, `0x0100 | SP` (10_state R44). -/
def stackAddress (sp : Byte) : Word := Config.stackBase ||| zext16 sp

/-- `Push(v)`: write, then decrement (47_stack R340). -/
def State.push (s : State) (v : Byte) : State := (s.write8 (stackAddress s.sp) v).setSp (s.sp - 1#8)

/-- The byte `Pull()` returns: the one above SP (47_stack R340). -/
def State.pulled (s : State) : Byte := s.read8 (stackAddress (s.sp + 1#8))

/-- The state after `Pull()`: SP incremented (47_stack R340). -/
def State.afterPull (s : State) : State := s.setSp (s.sp + 1#8)

/-- `Push16(w)`: high byte first (47_stack R341, 90_conflicts C2). -/
def State.push16 (s : State) (w : Word) : State := (s.push (hi w)).push (lo w)

/-- The word `Pull16()` returns: low byte first (47_stack R341). -/
def State.pulled16 (s : State) : Word := word s.afterPull.pulled s.pulled

/-- The state after `Pull16()` (47_stack R341). -/
def State.afterPull16 (s : State) : State := s.afterPull.afterPull

/-! ### Exceptions (60_exceptions) -/

/-- `InterruptEntry(ret, status, vector)`, shared by BRK, NMI and IRQ (60_exceptions R411): the return address and the status byte
pushed, I set, PC loaded from the vector; N, V, D, Z and C unchanged. -/
def interruptEntry (ret : Word) (status : Byte) (vector : Word) (s : State) : State :=
  let pushed := (s.push16 ret).push status
  (pushed.setFlags { pushed.flags with i := true }).setPc (pushed.mem.readWord vector)

/-- The return from an interrupt (48_control_transfer R363): the status byte pulled into the stored flags, then PC, with no + 1. -/
def interruptReturn (s : State) : State :=
  let restored := s.afterPull.setFlags (Flags.ofByte s.pulled)
  restored.afterPull16.setPc restored.pulled16

/-- The state the unknown-opcode fault leaves (60_exceptions R400): `halted` set and the record kept, PC at the opcode, nothing else
changed. -/
def haltOnUnknownOpcode (op : Byte) (s : State) : State :=
  { s with halted := true, faultRecord := some (.unknownOpcode op s.pc) }

/-- The unknown-opcode fault of a state whose PC is at the opcode (60_exceptions R400). -/
def unknownOpcodeFault (s : State) : Fault :=
  .unknownOpcode (s.read8 s.pc) s.pc (haltOnUnknownOpcode (s.read8 s.pc) s)

/-- The state a fault leaves (60_exceptions R400, R403). -/
def Fault.left : Fault → State
  | .unknownOpcode _ _ s => s
  | .halted s => s

end Sys2Proof.Machine
end

