-- ==== Sys2Proof/Machine/Operands.lean ====
section
/-! DEFINITION. The addressing-mode resolver (40_addressing_modes): the effective address of each mode, the resolved operand and the
page-cross signal, and reading and writing an operand. Every function takes the state after the instruction's bytes were fetched. -/

namespace Sys2Proof.Machine

/-- Zero-page (R167). -/
def eaZeroPage (n : Byte) : Word := zext16 n

/-- Zero-page,X (R168): wraps within page 0. -/
def eaZeroPageX (n : Byte) (s : State) : Word := zext16 (n + s.x)

/-- Zero-page,Y (R169): wraps within page 0. -/
def eaZeroPageY (n : Byte) (s : State) : Word := zext16 (n + s.y)

/-- Absolute (R170). -/
def eaAbsolute (w : Word) : Word := w

/-- Indirect (R171): the word at the pointer, with the page-wrap bug. -/
def eaIndirect (w : Word) (s : State) : Word := s.mem.readWordPageWrap w

/-- Absolute,X (R172): wraps mod 65536. -/
def eaAbsoluteX (w : Word) (s : State) : Word := w + zext16 s.x

/-- Absolute,Y (R173): wraps mod 65536. -/
def eaAbsoluteY (w : Word) (s : State) : Word := w + zext16 s.y

/-- (Indirect,X) (R174): the zero-page pointer at the operand byte plus X. -/
def eaIndexedIndirect (n : Byte) (s : State) : Word := s.mem.readWordZeroPage (n + s.x)

/-- (Indirect),Y (R175): the word at the zero-page pointer, plus Y. -/
def eaIndirectIndexed (n : Byte) (s : State) : Word := s.mem.readWordZeroPage n + zext16 s.y

/-- The target of a branch (R176): the offset added to PC after PC has advanced past the operand byte. -/
def branchTarget (d : Int) (s : State) : Word := s.pc + wrap16 d

/-- The page changes between two addresses (R163). -/
def pageCrossed (base ea : Word) : Bool := decide (hi base ≠ hi ea)

/-- The resolved operand (R162). -/
inductive Opnd where
  | none
  | acc
  | imm (b : Byte)
  | addr (ea : Word)
  | target (t : Word)
  deriving DecidableEq, Repr

/-- The resolved operand with the page-cross signal (R161, R163). -/
structure Resolved where
  opnd    : Opnd
  crossed : Bool
  deriving DecidableEq, Repr

/-- `Resolve(mode)` (R164 to R176), PC already past the operand bytes. -/
def resolve (o : Operand) (s : State) : Resolved :=
  match o with
  | .implied => ⟨.none, false⟩
  | .accumulator => ⟨.acc, false⟩
  | .immediate n => ⟨.imm n, false⟩
  | .zeroPage n => ⟨.addr (eaZeroPage n), false⟩
  | .zeroPageX n => ⟨.addr (eaZeroPageX n s), false⟩
  | .zeroPageY n => ⟨.addr (eaZeroPageY n s), false⟩
  | .absolute w => ⟨.addr (eaAbsolute w), false⟩
  | .indirect w => ⟨.addr (eaIndirect w s), false⟩
  | .absoluteX w => ⟨.addr (eaAbsoluteX w s), pageCrossed w (eaAbsoluteX w s)⟩
  | .absoluteY w => ⟨.addr (eaAbsoluteY w s), pageCrossed w (eaAbsoluteY w s)⟩
  | .indexedIndirect n => ⟨.addr (eaIndexedIndirect n s), false⟩
  | .indirectIndexed n => ⟨.addr (eaIndirectIndexed n s), pageCrossed (s.mem.readWordZeroPage n) (eaIndirectIndexed n s)⟩
  | .relative d => ⟨.target (branchTarget d s), false⟩

/-- Where a read-modify-write instruction reads its operand and writes its result (R162, R177): the accumulator or a byte of
memory. -/
inductive Place where
  | acc
  | addr (ea : Word)
  deriving DecidableEq, Repr

/-- `ReadOperand` of a place (R162). -/
def Place.read (p : Place) (s : State) : Byte :=
  match p with
  | .acc => s.a
  | .addr ea => s.read8 ea

/-- `WriteOperand` of a place (R162). -/
def Place.write (p : Place) (v : Byte) (s : State) : State :=
  match p with
  | .acc => s.setA v
  | .addr ea => s.write8 ea v

end Sys2Proof.Machine
end

