-- ==== Sys2Proof/Machine/ArithmeticCompare.lean ====
section
/-! DEFINITION. The meanings of 45_arithmetic_compare: arithmetic and comparison, binary whatever the decimal flag (41_alu_flags R212). Each takes the state whose PC is already past the instruction
(40_addressing_modes R161). -/

namespace Sys2Proof.Machine

/-- The common part of ADC and SBC (R300, R301): the result in A, C and V as computed, N and Z from the result. -/
def sumToA (r : SumResult) (s : State) : State :=
  ((s.setA r.value).setFlags { s.flags with c := r.carry, v := r.overflow }).setNZ r.value

/-- ADC (R300). -/
def adc (m : Byte) (s : State) : State := sumToA (add s.a m s.flags.c) s

/-- ADC 61, ($nn,X). -/
def execAdcIndX (n : Byte) (s : State) : Result := .next (adc (s.read8 (eaIndexedIndirect n s)) s)
/-- ADC 65, $nn. -/
def execAdcZp (n : Byte) (s : State) : Result := .next (adc (s.read8 (eaZeroPage n)) s)
/-- ADC 69, #$nn. -/
def execAdcImm (n : Byte) (s : State) : Result := .next (adc n s)
/-- ADC 6D, $hhll. -/
def execAdcAbs (w : Word) (s : State) : Result := .next (adc (s.read8 (eaAbsolute w)) s)
/-- ADC 71, ($nn),Y. -/
def execAdcIndY (n : Byte) (s : State) : Result := .next (adc (s.read8 (eaIndirectIndexed n s)) s)
/-- ADC 75, $nn,X. -/
def execAdcZpX (n : Byte) (s : State) : Result := .next (adc (s.read8 (eaZeroPageX n s)) s)
/-- ADC 79, $hhll,Y. -/
def execAdcAbsY (w : Word) (s : State) : Result := .next (adc (s.read8 (eaAbsoluteY w s)) s)
/-- ADC 7D, $hhll,X. -/
def execAdcAbsX (w : Word) (s : State) : Result := .next (adc (s.read8 (eaAbsoluteX w s)) s)

/-- SBC (R301). -/
def sbc (m : Byte) (s : State) : State := sumToA (sub s.a m s.flags.c) s

/-- SBC E1, ($nn,X). -/
def execSbcIndX (n : Byte) (s : State) : Result := .next (sbc (s.read8 (eaIndexedIndirect n s)) s)
/-- SBC E5, $nn. -/
def execSbcZp (n : Byte) (s : State) : Result := .next (sbc (s.read8 (eaZeroPage n)) s)
/-- SBC E9, #$nn. -/
def execSbcImm (n : Byte) (s : State) : Result := .next (sbc n s)
/-- SBC ED, $hhll. -/
def execSbcAbs (w : Word) (s : State) : Result := .next (sbc (s.read8 (eaAbsolute w)) s)
/-- SBC F1, ($nn),Y. -/
def execSbcIndY (n : Byte) (s : State) : Result := .next (sbc (s.read8 (eaIndirectIndexed n s)) s)
/-- SBC F5, $nn,X. -/
def execSbcZpX (n : Byte) (s : State) : Result := .next (sbc (s.read8 (eaZeroPageX n s)) s)
/-- SBC F9, $hhll,Y. -/
def execSbcAbsY (w : Word) (s : State) : Result := .next (sbc (s.read8 (eaAbsoluteY w s)) s)
/-- SBC FD, $hhll,X. -/
def execSbcAbsX (w : Word) (s : State) : Result := .next (sbc (s.read8 (eaAbsoluteX w s)) s)

/-- CMP (R302). -/
def cmp (m : Byte) (s : State) : State := s.setFlags (s.flags.compare s.a m)

/-- CMP C1, ($nn,X). -/
def execCmpIndX (n : Byte) (s : State) : Result := .next (cmp (s.read8 (eaIndexedIndirect n s)) s)
/-- CMP C5, $nn. -/
def execCmpZp (n : Byte) (s : State) : Result := .next (cmp (s.read8 (eaZeroPage n)) s)
/-- CMP C9, #$nn. -/
def execCmpImm (n : Byte) (s : State) : Result := .next (cmp n s)
/-- CMP CD, $hhll. -/
def execCmpAbs (w : Word) (s : State) : Result := .next (cmp (s.read8 (eaAbsolute w)) s)
/-- CMP D1, ($nn),Y. -/
def execCmpIndY (n : Byte) (s : State) : Result := .next (cmp (s.read8 (eaIndirectIndexed n s)) s)
/-- CMP D5, $nn,X. -/
def execCmpZpX (n : Byte) (s : State) : Result := .next (cmp (s.read8 (eaZeroPageX n s)) s)
/-- CMP D9, $hhll,Y. -/
def execCmpAbsY (w : Word) (s : State) : Result := .next (cmp (s.read8 (eaAbsoluteY w s)) s)
/-- CMP DD, $hhll,X. -/
def execCmpAbsX (w : Word) (s : State) : Result := .next (cmp (s.read8 (eaAbsoluteX w s)) s)

/-- CPX (R303). -/
def cpx (m : Byte) (s : State) : State := s.setFlags (s.flags.compare s.x m)

/-- CPX E0, #$nn. -/
def execCpxImm (n : Byte) (s : State) : Result := .next (cpx n s)
/-- CPX E4, $nn. -/
def execCpxZp (n : Byte) (s : State) : Result := .next (cpx (s.read8 (eaZeroPage n)) s)
/-- CPX EC, $hhll. -/
def execCpxAbs (w : Word) (s : State) : Result := .next (cpx (s.read8 (eaAbsolute w)) s)

/-- CPY (R304). -/
def cpy (m : Byte) (s : State) : State := s.setFlags (s.flags.compare s.y m)

/-- CPY C0, #$nn. -/
def execCpyImm (n : Byte) (s : State) : Result := .next (cpy n s)
/-- CPY C4, $nn. -/
def execCpyZp (n : Byte) (s : State) : Result := .next (cpy (s.read8 (eaZeroPage n)) s)
/-- CPY CC, $hhll. -/
def execCpyAbs (w : Word) (s : State) : Result := .next (cpy (s.read8 (eaAbsolute w)) s)

/-- BIT (R305). -/
def bit (m : Byte) (s : State) : State := s.setFlags (s.flags.bitTest s.a m)

/-- BIT 24, $nn. -/
def execBitZp (n : Byte) (s : State) : Result := .next (bit (s.read8 (eaZeroPage n)) s)
/-- BIT 2C, $hhll. -/
def execBitAbs (w : Word) (s : State) : Result := .next (bit (s.read8 (eaAbsolute w)) s)

end Sys2Proof.Machine
end

