-- ==== Sys2Proof/Machine/Branch.lean ====
section
/-! DEFINITION. The meanings of 46_branch: the eight conditional branches. Each takes the state whose PC is already past the instruction
(40_addressing_modes R161). -/

namespace Sys2Proof.Machine

/-- The common branch operation (R320): PC takes the target only when the condition holds. -/
def branch (taken : Bool) (d : Int) (s : State) : State := if taken then s.setPc (branchTarget d s) else s

/-- BPL (R321). -/
def execBpl (d : Int) (s : State) : Result := .next (branch (!s.flags.n) d s)

/-- BMI (R322). -/
def execBmi (d : Int) (s : State) : Result := .next (branch (s.flags.n) d s)

/-- BVC (R323). -/
def execBvc (d : Int) (s : State) : Result := .next (branch (!s.flags.v) d s)

/-- BVS (R324). -/
def execBvs (d : Int) (s : State) : Result := .next (branch (s.flags.v) d s)

/-- BCC (R325). -/
def execBcc (d : Int) (s : State) : Result := .next (branch (!s.flags.c) d s)

/-- BCS (R326). -/
def execBcs (d : Int) (s : State) : Result := .next (branch (s.flags.c) d s)

/-- BNE (R327). -/
def execBne (d : Int) (s : State) : Result := .next (branch (!s.flags.z) d s)

/-- BEQ (R328). -/
def execBeq (d : Int) (s : State) : Result := .next (branch (s.flags.z) d s)

end Sys2Proof.Machine
end

