-- ==== Sys2Proof/Machine/ControlTransfer.lean ====
section
/-! DEFINITION. The meanings of 48_control_transfer: jumps, subroutines, return from interrupt and BRK. Each takes the state whose PC is already past the instruction
(40_addressing_modes R161). -/

namespace Sys2Proof.Machine

/-- JMP (R360). -/
def jmp (ea : Word) (s : State) : State := s.setPc ea

/-- JMP 4C, $hhll. -/
def execJmpAbs (w : Word) (s : State) : Result := .next (jmp (eaAbsolute w) s)
/-- JMP 6C, ($hhll). -/
def execJmpInd (w : Word) (s : State) : Result := .next (jmp (eaIndirect w s) s)

/-- JSR (R361): the address of its own last byte is pushed. -/
def execJsr (w : Word) (s : State) : Result :=
  .next ((s.push16 (s.pc - 1#16)).setPc (eaAbsolute w))


/-- RTS (R362). -/
def execRts (s : State) : Result := .next (s.afterPull16.setPc (s.pulled16 + 1#16))

/-- RTI (R363). -/
def execRti (s : State) : Result := .next (interruptReturn s)

/-- BRK (R364): PC is past the opcode, so the return address is one further, past the padding byte. -/
def execBrk (s : State) : Result :=
  .next (interruptEntry (s.pc + 1#16) s.flags.pushedByInstruction Config.irqVector s)

end Sys2Proof.Machine
end

