-- ==== Sys2Proof/Machine/FlagNop.lean ====
section
/-! DEFINITION. The meanings of 49_flag_nop: flag set and clear, and NOP. Each takes the state whose PC is already past the instruction
(40_addressing_modes R161). -/

namespace Sys2Proof.Machine

/-- CLC (R380). -/
def execClc (s : State) : Result := .next (s.setFlags { s.flags with c := false })

/-- CLI (R381). -/
def execCli (s : State) : Result := .next (s.setFlags { s.flags with i := false })

/-- CLD (R382). -/
def execCld (s : State) : Result := .next (s.setFlags { s.flags with d := false })

/-- CLV (R383). -/
def execClv (s : State) : Result := .next (s.setFlags { s.flags with v := false })

/-- SEC (R384). -/
def execSec (s : State) : Result := .next (s.setFlags { s.flags with c := true })

/-- SEI (R385). -/
def execSei (s : State) : Result := .next (s.setFlags { s.flags with i := true })

/-- SED (R386). -/
def execSed (s : State) : Result := .next (s.setFlags { s.flags with d := true })

/-- NOP (R387): nothing beyond the fetch. -/
def execNop (s : State) : Result := .next (s)

end Sys2Proof.Machine
end

