-- ==== Sys2Proof/Machine/IncDec.lean ====
section
/-! DEFINITION. The meanings of 43_inc_dec: increment and decrement. Each takes the state whose PC is already past the instruction
(40_addressing_modes R161). -/

namespace Sys2Proof.Machine

/-- INC (R260): one read, one write. -/
def inc (ea : Word) (s : State) : State :=
  let r := increment (s.read8 ea)
  (s.write8 ea r).setNZ r

/-- INC E6, $nn. -/
def execIncZp (n : Byte) (s : State) : Result := .next (inc (eaZeroPage n) s)
/-- INC EE, $hhll. -/
def execIncAbs (w : Word) (s : State) : Result := .next (inc (eaAbsolute w) s)
/-- INC F6, $nn,X. -/
def execIncZpX (n : Byte) (s : State) : Result := .next (inc (eaZeroPageX n s) s)
/-- INC FE, $hhll,X. -/
def execIncAbsX (w : Word) (s : State) : Result := .next (inc (eaAbsoluteX w s) s)

/-- INX (R261). -/
def execInx (s : State) : Result := .next ((s.setX (increment s.x)).setNZ (increment s.x))

/-- INY (R262). -/
def execIny (s : State) : Result := .next ((s.setY (increment s.y)).setNZ (increment s.y))

/-- DEC (R263): one read, one write. -/
def dec (ea : Word) (s : State) : State :=
  let r := decrement (s.read8 ea)
  (s.write8 ea r).setNZ r

/-- DEC C6, $nn. -/
def execDecZp (n : Byte) (s : State) : Result := .next (dec (eaZeroPage n) s)
/-- DEC CE, $hhll. -/
def execDecAbs (w : Word) (s : State) : Result := .next (dec (eaAbsolute w) s)
/-- DEC D6, $nn,X. -/
def execDecZpX (n : Byte) (s : State) : Result := .next (dec (eaZeroPageX n s) s)
/-- DEC DE, $hhll,X. -/
def execDecAbsX (w : Word) (s : State) : Result := .next (dec (eaAbsoluteX w s) s)

/-- DEX (R264). -/
def execDex (s : State) : Result := .next ((s.setX (decrement s.x)).setNZ (decrement s.x))

/-- DEY (R265). -/
def execDey (s : State) : Result := .next ((s.setY (decrement s.y)).setNZ (decrement s.y))

end Sys2Proof.Machine
end

