-- ==== Sys2Proof/Machine/LoadStore.lean ====
section
/-! DEFINITION. The meanings of 42_load_store_transfer: loads, stores and register transfers. Each takes the state whose PC is already past the instruction
(40_addressing_modes R161). -/

namespace Sys2Proof.Machine

/-- LDA (R230), `m` being the operand byte M. -/
def lda (m : Byte) (s : State) : State := (s.setA m).setNZ m

/-- LDA A1, ($nn,X). -/
def execLdaIndX (n : Byte) (s : State) : Result := .next (lda (s.read8 (eaIndexedIndirect n s)) s)
/-- LDA A5, $nn. -/
def execLdaZp (n : Byte) (s : State) : Result := .next (lda (s.read8 (eaZeroPage n)) s)
/-- LDA A9, #$nn. -/
def execLdaImm (n : Byte) (s : State) : Result := .next (lda n s)
/-- LDA AD, $hhll. -/
def execLdaAbs (w : Word) (s : State) : Result := .next (lda (s.read8 (eaAbsolute w)) s)
/-- LDA B1, ($nn),Y. -/
def execLdaIndY (n : Byte) (s : State) : Result := .next (lda (s.read8 (eaIndirectIndexed n s)) s)
/-- LDA B5, $nn,X. -/
def execLdaZpX (n : Byte) (s : State) : Result := .next (lda (s.read8 (eaZeroPageX n s)) s)
/-- LDA B9, $hhll,Y. -/
def execLdaAbsY (w : Word) (s : State) : Result := .next (lda (s.read8 (eaAbsoluteY w s)) s)
/-- LDA BD, $hhll,X. -/
def execLdaAbsX (w : Word) (s : State) : Result := .next (lda (s.read8 (eaAbsoluteX w s)) s)

/-- LDX (R231). -/
def ldx (m : Byte) (s : State) : State := (s.setX m).setNZ m

/-- LDX A2, #$nn. -/
def execLdxImm (n : Byte) (s : State) : Result := .next (ldx n s)
/-- LDX A6, $nn. -/
def execLdxZp (n : Byte) (s : State) : Result := .next (ldx (s.read8 (eaZeroPage n)) s)
/-- LDX AE, $hhll. -/
def execLdxAbs (w : Word) (s : State) : Result := .next (ldx (s.read8 (eaAbsolute w)) s)
/-- LDX B6, $nn,Y. -/
def execLdxZpY (n : Byte) (s : State) : Result := .next (ldx (s.read8 (eaZeroPageY n s)) s)
/-- LDX BE, $hhll,Y. -/
def execLdxAbsY (w : Word) (s : State) : Result := .next (ldx (s.read8 (eaAbsoluteY w s)) s)

/-- LDY (R232). -/
def ldy (m : Byte) (s : State) : State := (s.setY m).setNZ m

/-- LDY A0, #$nn. -/
def execLdyImm (n : Byte) (s : State) : Result := .next (ldy n s)
/-- LDY A4, $nn. -/
def execLdyZp (n : Byte) (s : State) : Result := .next (ldy (s.read8 (eaZeroPage n)) s)
/-- LDY AC, $hhll. -/
def execLdyAbs (w : Word) (s : State) : Result := .next (ldy (s.read8 (eaAbsolute w)) s)
/-- LDY B4, $nn,X. -/
def execLdyZpX (n : Byte) (s : State) : Result := .next (ldy (s.read8 (eaZeroPageX n s)) s)
/-- LDY BC, $hhll,X. -/
def execLdyAbsX (w : Word) (s : State) : Result := .next (ldy (s.read8 (eaAbsoluteX w s)) s)

/-- STA (R233): one write, no read, no flag. -/
def sta (ea : Word) (s : State) : State := s.write8 ea s.a

/-- STA 81, ($nn,X). -/
def execStaIndX (n : Byte) (s : State) : Result := .next (sta (eaIndexedIndirect n s) s)
/-- STA 85, $nn. -/
def execStaZp (n : Byte) (s : State) : Result := .next (sta (eaZeroPage n) s)
/-- STA 8D, $hhll. -/
def execStaAbs (w : Word) (s : State) : Result := .next (sta (eaAbsolute w) s)
/-- STA 91, ($nn),Y. -/
def execStaIndY (n : Byte) (s : State) : Result := .next (sta (eaIndirectIndexed n s) s)
/-- STA 95, $nn,X. -/
def execStaZpX (n : Byte) (s : State) : Result := .next (sta (eaZeroPageX n s) s)
/-- STA 99, $hhll,Y. -/
def execStaAbsY (w : Word) (s : State) : Result := .next (sta (eaAbsoluteY w s) s)
/-- STA 9D, $hhll,X. -/
def execStaAbsX (w : Word) (s : State) : Result := .next (sta (eaAbsoluteX w s) s)

/-- STX (R234). -/
def stx (ea : Word) (s : State) : State := s.write8 ea s.x

/-- STX 86, $nn. -/
def execStxZp (n : Byte) (s : State) : Result := .next (stx (eaZeroPage n) s)
/-- STX 8E, $hhll. -/
def execStxAbs (w : Word) (s : State) : Result := .next (stx (eaAbsolute w) s)
/-- STX 96, $nn,Y. -/
def execStxZpY (n : Byte) (s : State) : Result := .next (stx (eaZeroPageY n s) s)

/-- STY (R235). -/
def sty (ea : Word) (s : State) : State := s.write8 ea s.y

/-- STY 84, $nn. -/
def execStyZp (n : Byte) (s : State) : Result := .next (sty (eaZeroPage n) s)
/-- STY 8C, $hhll. -/
def execStyAbs (w : Word) (s : State) : Result := .next (sty (eaAbsolute w) s)
/-- STY 94, $nn,X. -/
def execStyZpX (n : Byte) (s : State) : Result := .next (sty (eaZeroPageX n s) s)

/-- TAX (R236). -/
def execTax (s : State) : Result := .next ((s.setX s.a).setNZ s.a)

/-- TAY (R237). -/
def execTay (s : State) : Result := .next ((s.setY s.a).setNZ s.a)

/-- TXA (R238). -/
def execTxa (s : State) : Result := .next ((s.setA s.x).setNZ s.x)

/-- TYA (R239). -/
def execTya (s : State) : Result := .next ((s.setA s.y).setNZ s.y)

/-- TSX (R240). -/
def execTsx (s : State) : Result := .next ((s.setX s.sp).setNZ s.sp)

/-- TXS (R241): writes no flag (90_conflicts C3). -/
def execTxs (s : State) : Result := .next (s.setSp s.x)

end Sys2Proof.Machine
end

