-- ==== Sys2Proof/Machine/LogicalShift.lean ====
section
/-! DEFINITION. The meanings of 44_logical_shift: logical operations, shifts and rotates. Each takes the state whose PC is already past the instruction
(40_addressing_modes R161). -/

namespace Sys2Proof.Machine

/-- The common part of the shifts and rotates (R283 to R286): the result written back where the operand was read, C the bit shifted
out, N and Z from the result. -/
def shiftAt (p : Place) (r : ShiftResult) (s : State) : State :=
  ((p.write r.value s).setFlags { s.flags with c := r.carry }).setNZ r.value

/-- ORA (R280). -/
def ora (m : Byte) (s : State) : State := (s.setA (s.a ||| m)).setNZ (s.a ||| m)

/-- ORA 01, ($nn,X). -/
def execOraIndX (n : Byte) (s : State) : Result := .next (ora (s.read8 (eaIndexedIndirect n s)) s)
/-- ORA 05, $nn. -/
def execOraZp (n : Byte) (s : State) : Result := .next (ora (s.read8 (eaZeroPage n)) s)
/-- ORA 09, #$nn. -/
def execOraImm (n : Byte) (s : State) : Result := .next (ora n s)
/-- ORA 0D, $hhll. -/
def execOraAbs (w : Word) (s : State) : Result := .next (ora (s.read8 (eaAbsolute w)) s)
/-- ORA 11, ($nn),Y. -/
def execOraIndY (n : Byte) (s : State) : Result := .next (ora (s.read8 (eaIndirectIndexed n s)) s)
/-- ORA 15, $nn,X. -/
def execOraZpX (n : Byte) (s : State) : Result := .next (ora (s.read8 (eaZeroPageX n s)) s)
/-- ORA 19, $hhll,Y. -/
def execOraAbsY (w : Word) (s : State) : Result := .next (ora (s.read8 (eaAbsoluteY w s)) s)
/-- ORA 1D, $hhll,X. -/
def execOraAbsX (w : Word) (s : State) : Result := .next (ora (s.read8 (eaAbsoluteX w s)) s)

/-- AND (R281). -/
def and (m : Byte) (s : State) : State := (s.setA (s.a &&& m)).setNZ (s.a &&& m)

/-- AND 21, ($nn,X). -/
def execAndIndX (n : Byte) (s : State) : Result := .next (and (s.read8 (eaIndexedIndirect n s)) s)
/-- AND 25, $nn. -/
def execAndZp (n : Byte) (s : State) : Result := .next (and (s.read8 (eaZeroPage n)) s)
/-- AND 29, #$nn. -/
def execAndImm (n : Byte) (s : State) : Result := .next (and n s)
/-- AND 2D, $hhll. -/
def execAndAbs (w : Word) (s : State) : Result := .next (and (s.read8 (eaAbsolute w)) s)
/-- AND 31, ($nn),Y. -/
def execAndIndY (n : Byte) (s : State) : Result := .next (and (s.read8 (eaIndirectIndexed n s)) s)
/-- AND 35, $nn,X. -/
def execAndZpX (n : Byte) (s : State) : Result := .next (and (s.read8 (eaZeroPageX n s)) s)
/-- AND 39, $hhll,Y. -/
def execAndAbsY (w : Word) (s : State) : Result := .next (and (s.read8 (eaAbsoluteY w s)) s)
/-- AND 3D, $hhll,X. -/
def execAndAbsX (w : Word) (s : State) : Result := .next (and (s.read8 (eaAbsoluteX w s)) s)

/-- EOR (R282). -/
def eor (m : Byte) (s : State) : State := (s.setA (s.a ^^^ m)).setNZ (s.a ^^^ m)

/-- EOR 41, ($nn,X). -/
def execEorIndX (n : Byte) (s : State) : Result := .next (eor (s.read8 (eaIndexedIndirect n s)) s)
/-- EOR 45, $nn. -/
def execEorZp (n : Byte) (s : State) : Result := .next (eor (s.read8 (eaZeroPage n)) s)
/-- EOR 49, #$nn. -/
def execEorImm (n : Byte) (s : State) : Result := .next (eor n s)
/-- EOR 4D, $hhll. -/
def execEorAbs (w : Word) (s : State) : Result := .next (eor (s.read8 (eaAbsolute w)) s)
/-- EOR 51, ($nn),Y. -/
def execEorIndY (n : Byte) (s : State) : Result := .next (eor (s.read8 (eaIndirectIndexed n s)) s)
/-- EOR 55, $nn,X. -/
def execEorZpX (n : Byte) (s : State) : Result := .next (eor (s.read8 (eaZeroPageX n s)) s)
/-- EOR 59, $hhll,Y. -/
def execEorAbsY (w : Word) (s : State) : Result := .next (eor (s.read8 (eaAbsoluteY w s)) s)
/-- EOR 5D, $hhll,X. -/
def execEorAbsX (w : Word) (s : State) : Result := .next (eor (s.read8 (eaAbsoluteX w s)) s)

/-- ASL (R283), on the accumulator or a byte of memory. -/
def asl (p : Place) (s : State) : State := shiftAt p (shiftLeft (p.read s)) s

/-- ASL 06, $nn. -/
def execAslZp (n : Byte) (s : State) : Result := .next (asl (.addr (eaZeroPage n)) s)
/-- ASL 0A, A. -/
def execAslAcc (s : State) : Result := .next (asl .acc s)
/-- ASL 0E, $hhll. -/
def execAslAbs (w : Word) (s : State) : Result := .next (asl (.addr (eaAbsolute w)) s)
/-- ASL 16, $nn,X. -/
def execAslZpX (n : Byte) (s : State) : Result := .next (asl (.addr (eaZeroPageX n s)) s)
/-- ASL 1E, $hhll,X. -/
def execAslAbsX (w : Word) (s : State) : Result := .next (asl (.addr (eaAbsoluteX w s)) s)

/-- ROL (R284). -/
def rol (p : Place) (s : State) : State := shiftAt p (rotateLeft (p.read s) s.flags.c) s

/-- ROL 26, $nn. -/
def execRolZp (n : Byte) (s : State) : Result := .next (rol (.addr (eaZeroPage n)) s)
/-- ROL 2A, A. -/
def execRolAcc (s : State) : Result := .next (rol .acc s)
/-- ROL 2E, $hhll. -/
def execRolAbs (w : Word) (s : State) : Result := .next (rol (.addr (eaAbsolute w)) s)
/-- ROL 36, $nn,X. -/
def execRolZpX (n : Byte) (s : State) : Result := .next (rol (.addr (eaZeroPageX n s)) s)
/-- ROL 3E, $hhll,X. -/
def execRolAbsX (w : Word) (s : State) : Result := .next (rol (.addr (eaAbsoluteX w s)) s)

/-- ROR (R285). -/
def ror (p : Place) (s : State) : State := shiftAt p (rotateRight (p.read s) s.flags.c) s

/-- ROR 66, $nn. -/
def execRorZp (n : Byte) (s : State) : Result := .next (ror (.addr (eaZeroPage n)) s)
/-- ROR 6A, A. -/
def execRorAcc (s : State) : Result := .next (ror .acc s)
/-- ROR 6E, $hhll. -/
def execRorAbs (w : Word) (s : State) : Result := .next (ror (.addr (eaAbsolute w)) s)
/-- ROR 76, $nn,X. -/
def execRorZpX (n : Byte) (s : State) : Result := .next (ror (.addr (eaZeroPageX n s)) s)
/-- ROR 7E, $hhll,X. -/
def execRorAbsX (w : Word) (s : State) : Result := .next (ror (.addr (eaAbsoluteX w s)) s)

/-- LSR (R286). -/
def lsr (p : Place) (s : State) : State := shiftAt p (shiftRight (p.read s)) s

/-- LSR 46, $nn. -/
def execLsrZp (n : Byte) (s : State) : Result := .next (lsr (.addr (eaZeroPage n)) s)
/-- LSR 4A, A. -/
def execLsrAcc (s : State) : Result := .next (lsr .acc s)
/-- LSR 4E, $hhll. -/
def execLsrAbs (w : Word) (s : State) : Result := .next (lsr (.addr (eaAbsolute w)) s)
/-- LSR 56, $nn,X. -/
def execLsrZpX (n : Byte) (s : State) : Result := .next (lsr (.addr (eaZeroPageX n s)) s)
/-- LSR 5E, $hhll,X. -/
def execLsrAbsX (w : Word) (s : State) : Result := .next (lsr (.addr (eaAbsoluteX w s)) s)

end Sys2Proof.Machine
end

