-- ==== Sys2Proof/Machine/StackOps.lean ====
section
/-! DEFINITION. The meanings of 47_stack: the stack instructions. Each takes the state whose PC is already past the instruction
(40_addressing_modes R161). -/

namespace Sys2Proof.Machine

/-- PHA (R343). -/
def execPha (s : State) : Result := .next (s.push s.a)

/-- PHP (R344): the pushed byte has bits 5 and 4 set. -/
def execPhp (s : State) : Result := .next (s.push s.flags.pushedByInstruction)

/-- PLA (R345). -/
def execPla (s : State) : Result := .next ((s.afterPull.setA s.pulled).setNZ s.pulled)

/-- PLP (R346): bits 5 and 4 are discarded. -/
def execPlp (s : State) : Result := .next (s.afterPull.setFlags (Flags.ofByte s.pulled))

end Sys2Proof.Machine
end

