-- ==== Sys2Proof/Machine/Dispatch.lean ====
section
/-! DEFINITION. exec: one arm per instruction, each one call of its meaning, on the state whose PC is past the instruction. -/

namespace Sys2Proof.Machine

def exec (i : Instr) (s : State) : Host.Outcome State Fault Refusal :=
  match i with
  | .brk => Sys2Proof.Machine.execBrk s
  | .oraIndX n => Sys2Proof.Machine.execOraIndX n s
  | .oraZp n => Sys2Proof.Machine.execOraZp n s
  | .aslZp n => Sys2Proof.Machine.execAslZp n s
  | .php => Sys2Proof.Machine.execPhp s
  | .oraImm n => Sys2Proof.Machine.execOraImm n s
  | .aslAcc => Sys2Proof.Machine.execAslAcc s
  | .oraAbs w => Sys2Proof.Machine.execOraAbs w s
  | .aslAbs w => Sys2Proof.Machine.execAslAbs w s
  | .bpl d => Sys2Proof.Machine.execBpl d s
  | .oraIndY n => Sys2Proof.Machine.execOraIndY n s
  | .oraZpX n => Sys2Proof.Machine.execOraZpX n s
  | .aslZpX n => Sys2Proof.Machine.execAslZpX n s
  | .clc => Sys2Proof.Machine.execClc s
  | .oraAbsY w => Sys2Proof.Machine.execOraAbsY w s
  | .oraAbsX w => Sys2Proof.Machine.execOraAbsX w s
  | .aslAbsX w => Sys2Proof.Machine.execAslAbsX w s
  | .jsr w => Sys2Proof.Machine.execJsr w s
  | .andIndX n => Sys2Proof.Machine.execAndIndX n s
  | .bitZp n => Sys2Proof.Machine.execBitZp n s
  | .andZp n => Sys2Proof.Machine.execAndZp n s
  | .rolZp n => Sys2Proof.Machine.execRolZp n s
  | .plp => Sys2Proof.Machine.execPlp s
  | .andImm n => Sys2Proof.Machine.execAndImm n s
  | .rolAcc => Sys2Proof.Machine.execRolAcc s
  | .bitAbs w => Sys2Proof.Machine.execBitAbs w s
  | .andAbs w => Sys2Proof.Machine.execAndAbs w s
  | .rolAbs w => Sys2Proof.Machine.execRolAbs w s
  | .bmi d => Sys2Proof.Machine.execBmi d s
  | .andIndY n => Sys2Proof.Machine.execAndIndY n s
  | .andZpX n => Sys2Proof.Machine.execAndZpX n s
  | .rolZpX n => Sys2Proof.Machine.execRolZpX n s
  | .sec => Sys2Proof.Machine.execSec s
  | .andAbsY w => Sys2Proof.Machine.execAndAbsY w s
  | .andAbsX w => Sys2Proof.Machine.execAndAbsX w s
  | .rolAbsX w => Sys2Proof.Machine.execRolAbsX w s
  | .rti => Sys2Proof.Machine.execRti s
  | .eorIndX n => Sys2Proof.Machine.execEorIndX n s
  | .eorZp n => Sys2Proof.Machine.execEorZp n s
  | .lsrZp n => Sys2Proof.Machine.execLsrZp n s
  | .pha => Sys2Proof.Machine.execPha s
  | .eorImm n => Sys2Proof.Machine.execEorImm n s
  | .lsrAcc => Sys2Proof.Machine.execLsrAcc s
  | .jmpAbs w => Sys2Proof.Machine.execJmpAbs w s
  | .eorAbs w => Sys2Proof.Machine.execEorAbs w s
  | .lsrAbs w => Sys2Proof.Machine.execLsrAbs w s
  | .bvc d => Sys2Proof.Machine.execBvc d s
  | .eorIndY n => Sys2Proof.Machine.execEorIndY n s
  | .eorZpX n => Sys2Proof.Machine.execEorZpX n s
  | .lsrZpX n => Sys2Proof.Machine.execLsrZpX n s
  | .cli => Sys2Proof.Machine.execCli s
  | .eorAbsY w => Sys2Proof.Machine.execEorAbsY w s
  | .eorAbsX w => Sys2Proof.Machine.execEorAbsX w s
  | .lsrAbsX w => Sys2Proof.Machine.execLsrAbsX w s
  | .rts => Sys2Proof.Machine.execRts s
  | .adcIndX n => Sys2Proof.Machine.execAdcIndX n s
  | .adcZp n => Sys2Proof.Machine.execAdcZp n s
  | .rorZp n => Sys2Proof.Machine.execRorZp n s
  | .pla => Sys2Proof.Machine.execPla s
  | .adcImm n => Sys2Proof.Machine.execAdcImm n s
  | .rorAcc => Sys2Proof.Machine.execRorAcc s
  | .jmpInd w => Sys2Proof.Machine.execJmpInd w s
  | .adcAbs w => Sys2Proof.Machine.execAdcAbs w s
  | .rorAbs w => Sys2Proof.Machine.execRorAbs w s
  | .bvs d => Sys2Proof.Machine.execBvs d s
  | .adcIndY n => Sys2Proof.Machine.execAdcIndY n s
  | .adcZpX n => Sys2Proof.Machine.execAdcZpX n s
  | .rorZpX n => Sys2Proof.Machine.execRorZpX n s
  | .sei => Sys2Proof.Machine.execSei s
  | .adcAbsY w => Sys2Proof.Machine.execAdcAbsY w s
  | .adcAbsX w => Sys2Proof.Machine.execAdcAbsX w s
  | .rorAbsX w => Sys2Proof.Machine.execRorAbsX w s
  | .staIndX n => Sys2Proof.Machine.execStaIndX n s
  | .styZp n => Sys2Proof.Machine.execStyZp n s
  | .staZp n => Sys2Proof.Machine.execStaZp n s
  | .stxZp n => Sys2Proof.Machine.execStxZp n s
  | .dey => Sys2Proof.Machine.execDey s
  | .txa => Sys2Proof.Machine.execTxa s
  | .styAbs w => Sys2Proof.Machine.execStyAbs w s
  | .staAbs w => Sys2Proof.Machine.execStaAbs w s
  | .stxAbs w => Sys2Proof.Machine.execStxAbs w s
  | .bcc d => Sys2Proof.Machine.execBcc d s
  | .staIndY n => Sys2Proof.Machine.execStaIndY n s
  | .styZpX n => Sys2Proof.Machine.execStyZpX n s
  | .staZpX n => Sys2Proof.Machine.execStaZpX n s
  | .stxZpY n => Sys2Proof.Machine.execStxZpY n s
  | .tya => Sys2Proof.Machine.execTya s
  | .staAbsY w => Sys2Proof.Machine.execStaAbsY w s
  | .txs => Sys2Proof.Machine.execTxs s
  | .staAbsX w => Sys2Proof.Machine.execStaAbsX w s
  | .ldyImm n => Sys2Proof.Machine.execLdyImm n s
  | .ldaIndX n => Sys2Proof.Machine.execLdaIndX n s
  | .ldxImm n => Sys2Proof.Machine.execLdxImm n s
  | .ldyZp n => Sys2Proof.Machine.execLdyZp n s
  | .ldaZp n => Sys2Proof.Machine.execLdaZp n s
  | .ldxZp n => Sys2Proof.Machine.execLdxZp n s
  | .tay => Sys2Proof.Machine.execTay s
  | .ldaImm n => Sys2Proof.Machine.execLdaImm n s
  | .tax => Sys2Proof.Machine.execTax s
  | .ldyAbs w => Sys2Proof.Machine.execLdyAbs w s
  | .ldaAbs w => Sys2Proof.Machine.execLdaAbs w s
  | .ldxAbs w => Sys2Proof.Machine.execLdxAbs w s
  | .bcs d => Sys2Proof.Machine.execBcs d s
  | .ldaIndY n => Sys2Proof.Machine.execLdaIndY n s
  | .ldyZpX n => Sys2Proof.Machine.execLdyZpX n s
  | .ldaZpX n => Sys2Proof.Machine.execLdaZpX n s
  | .ldxZpY n => Sys2Proof.Machine.execLdxZpY n s
  | .clv => Sys2Proof.Machine.execClv s
  | .ldaAbsY w => Sys2Proof.Machine.execLdaAbsY w s
  | .tsx => Sys2Proof.Machine.execTsx s
  | .ldyAbsX w => Sys2Proof.Machine.execLdyAbsX w s
  | .ldaAbsX w => Sys2Proof.Machine.execLdaAbsX w s
  | .ldxAbsY w => Sys2Proof.Machine.execLdxAbsY w s
  | .cpyImm n => Sys2Proof.Machine.execCpyImm n s
  | .cmpIndX n => Sys2Proof.Machine.execCmpIndX n s
  | .cpyZp n => Sys2Proof.Machine.execCpyZp n s
  | .cmpZp n => Sys2Proof.Machine.execCmpZp n s
  | .decZp n => Sys2Proof.Machine.execDecZp n s
  | .iny => Sys2Proof.Machine.execIny s
  | .cmpImm n => Sys2Proof.Machine.execCmpImm n s
  | .dex => Sys2Proof.Machine.execDex s
  | .cpyAbs w => Sys2Proof.Machine.execCpyAbs w s
  | .cmpAbs w => Sys2Proof.Machine.execCmpAbs w s
  | .decAbs w => Sys2Proof.Machine.execDecAbs w s
  | .bne d => Sys2Proof.Machine.execBne d s
  | .cmpIndY n => Sys2Proof.Machine.execCmpIndY n s
  | .cmpZpX n => Sys2Proof.Machine.execCmpZpX n s
  | .decZpX n => Sys2Proof.Machine.execDecZpX n s
  | .cld => Sys2Proof.Machine.execCld s
  | .cmpAbsY w => Sys2Proof.Machine.execCmpAbsY w s
  | .cmpAbsX w => Sys2Proof.Machine.execCmpAbsX w s
  | .decAbsX w => Sys2Proof.Machine.execDecAbsX w s
  | .cpxImm n => Sys2Proof.Machine.execCpxImm n s
  | .sbcIndX n => Sys2Proof.Machine.execSbcIndX n s
  | .cpxZp n => Sys2Proof.Machine.execCpxZp n s
  | .sbcZp n => Sys2Proof.Machine.execSbcZp n s
  | .incZp n => Sys2Proof.Machine.execIncZp n s
  | .inx => Sys2Proof.Machine.execInx s
  | .sbcImm n => Sys2Proof.Machine.execSbcImm n s
  | .nop => Sys2Proof.Machine.execNop s
  | .cpxAbs w => Sys2Proof.Machine.execCpxAbs w s
  | .sbcAbs w => Sys2Proof.Machine.execSbcAbs w s
  | .incAbs w => Sys2Proof.Machine.execIncAbs w s
  | .beq d => Sys2Proof.Machine.execBeq d s
  | .sbcIndY n => Sys2Proof.Machine.execSbcIndY n s
  | .sbcZpX n => Sys2Proof.Machine.execSbcZpX n s
  | .incZpX n => Sys2Proof.Machine.execIncZpX n s
  | .sed => Sys2Proof.Machine.execSed s
  | .sbcAbsY w => Sys2Proof.Machine.execSbcAbsY w s
  | .sbcAbsX w => Sys2Proof.Machine.execSbcAbsX w s
  | .incAbsX w => Sys2Proof.Machine.execIncAbsX w s

end Sys2Proof.Machine
end

