-- ==== Sys2Proof/Machine/Interrupts.lean ====
section
/-! DEFINITION. The power-up, reset and interrupt controller: the boundary poll (60_exceptions R413), NMI and IRQ entry (R410 to
R414), power-up and reset (70_reset_and_hazards R450 to R453). -/

namespace Sys2Proof.Machine

/-- What the environment presents at this boundary: the head of the schedule, all low when it is empty (log 3). -/
def State.nextInputs (s : State) : Inputs := s.inputs.headD Inputs.quiet

/-- The state after the inputs of this boundary are sampled: they leave the schedule, and an `nmi` event is latched (60_exceptions
R414; log 4). -/
def State.latch (s : State) : State :=
  { s with inputs := s.inputs.tail, nmiPending := s.nmiPending || s.nextInputs.nmi }

/-- What the core does at a boundary (60_exceptions R413, 00_scope R13). -/
inductive Event where
  | powerUp
  | reset
  | noStep
  | nmi
  | irq
  | instruction
  deriving DecidableEq, Repr

/-- The boundary poll, in the order of 60_exceptions R413; `s` is the state after `latch`. -/
def poll (p : Inputs) (s : State) : Event :=
  if p.powerOn then .powerUp
  else if p.reset then .reset
  else if s.halted then .noStep
  else if s.nmiPending then .nmi
  else if p.irq && !s.flags.i then .irq
  else .instruction

/-- NMI entry (60_exceptions R413, R414): the latch is cleared, the status byte has B = 0. -/
def takeNmi (s : State) : State :=
  interruptEntry s.pc s.flags.pushedByInterrupt Config.nmiVector { s with nmiPending := false }

/-- IRQ entry (60_exceptions R412): the status byte has B = 0. -/
def takeIrq (s : State) : State :=
  interruptEntry s.pc s.flags.pushedByInterrupt Config.irqVector s

/-- The memory after the platform's zero fill at power-up, if there is a range (70_reset_and_hazards R451). -/
def clearRange (range : Option Config.AddressRange) (m : Memory) : Memory :=
  match range with
  | none => m
  | some r => m.zeroFill r

/-- The power-up sequence for a given clear range (70_reset_and_hazards R450): memory is otherwise kept (log 13), and PC is read from
the reset vector after the platform's action. -/
def powerUpWith (range : Option Config.AddressRange) (s : State) : State :=
  let mem := clearRange range s.mem
  { s with
    a := 0x00#8, x := 0x00#8, y := 0x00#8, sp := Config.powerUpSp, flags := powerUpFlags, mem := mem,
    pc := mem.readWord Config.resetVector, halted := false, faultRecord := none, nmiPending := false }

/-- The power-up sequence, POWERUP_CLEAR_RANGE open (70_reset_and_hazards R450, R451; log 5). -/
def powerUp (s : State) : State := powerUpWith Config.powerUpClearRange s

/-- The reset sequence for given device registers and their new contents (70_reset_and_hazards R452, R453): SP - 3 with no memory
write, I set, the platform's action, then PC from the reset vector. -/
def resetWith (registers : List Word) (byteOf : Memory → Word → Byte) (s : State) : State :=
  let mem := Memory.writeEach (byteOf s.mem) registers s.mem
  { s with
    sp := s.sp - 3#8, flags := { s.flags with i := true }, mem := mem,
    pc := mem.readWord Config.resetVector, halted := false, faultRecord := none, nmiPending := false }

/-- The reset sequence, RESET_PLATFORM_ACTION open (70_reset_and_hazards R452, R453; log 6). -/
def resetSequence (s : State) : State := resetWith Config.deviceRegisters Config.resetDeviceByte s

/-- The schedule with the inputs of the next boundary all low. -/
def quietNext (inputs : List Inputs) : List Inputs :=
  match inputs with
  | [] => []
  | _ :: rest => Inputs.quiet :: rest

/-- The state in which nothing stands before the next instruction: not halted, no NMI pending, the next inputs low. -/
def State.readyToFetch (s : State) : State :=
  { s with halted := false, faultRecord := none, nmiPending := false, inputs := quietNext s.inputs }

/-- Bytes stored at an address and the ones after it, wrapping (70_reset_and_hazards R470). -/
def Memory.storeBytes (base : Word) : List Byte → Memory → Memory
  | [], m => m
  | b :: rest, m => Memory.storeBytes (base + 1#16) rest (m.write base b)

end Sys2Proof.Machine
end

