-- ==== Sys2Proof/Machine/Step.lean ====
section
/-! DEFINITION. One step of the core (00_scope R13): the boundary poll, then the event it chose. -/

namespace Sys2Proof.Machine

/-- One instruction step (40_addressing_modes R161): fetch, decode, PC past the instruction, execute; an opcode without an entry
faults (60_exceptions R400). -/
def instructionStep (s : State) : Host.Outcome State Fault Refusal :=
  match decode s.fetchBytes with
  | .error _ => .fault (unknownOpcodeFault s)
  | .ok (i, _) => exec i (s.advancePc i.length)

/-- What each event of the boundary poll does (60_exceptions R413), on the state after `latch`. -/
def runEvent (e : Event) (s : State) : Host.Outcome State Fault Refusal :=
  match e with
  | .powerUp => .next (powerUp s)
  | .reset => .next (resetSequence s)
  | .noStep => .fault (.halted s)
  | .nmi => .next (takeNmi s)
  | .irq => .next (takeIrq s)
  | .instruction => instructionStep s

/-- One step of the core (00_scope R13, 60_exceptions R413). -/
def step (s : State) : Host.Outcome State Fault Refusal := runEvent (poll s.nextInputs s.latch) s.latch

/-- The state with an instruction word of the opcode table stored at PC, ready to run it next: it stands for the load of a program
from outside (70_reset_and_hazards R456, R470; log 14). -/
def State.withFetchWord (s : State) (nbits w : Nat) : State :=
  s.readyToFetch.setMem (Memory.storeBytes s.pc (tableBytes nbits w) s.mem)

end Sys2Proof.Machine
end

