-- ==== Sys2Proof/Machine/Bus.lean ====
section
/-! DEFINITION. The bus accesses of one step, in the order of 20_memory R92 (D15): the opcode, the operand bytes, the pointer bytes, the
data read, the data write; stack accesses after the operand bytes and vector reads after the stack writes. The core's state does not
record this history (log 16): memory is flat, so no later step depends on it. -/

namespace Sys2Proof.Machine

/-- One access through the `Read8` or `Write8` port (00_scope R11, 20_memory R87). -/
inductive BusAccess where
  | read (a : Word)
  | write (a : Word) (v : Byte)
  deriving DecidableEq, Repr

/-- The memory after the writes of a history, applied in order (20_memory R82, R95). -/
def applyWrites : List BusAccess → Memory → Memory
  | [], m => m
  | .read _ :: rest, m => applyWrites rest m
  | .write a v :: rest, m => applyWrites rest (m.write a v)

/-- The fetch of an instruction of `n` bytes at `a` (R92 items 1 and 2). -/
def fetchReads : Nat → Word → List BusAccess
  | 0, _ => []
  | n + 1, a => .read a :: fetchReads n (a + 1#16)

/-- The two bytes of a zero-page pointer (20_memory R86). -/
def zeroPagePointerReads (z : Byte) : List BusAccess := [.read (zext16 z), .read (zext16 (z + 1#8))]

/-- The pointer reads of each mode, low byte then high byte (R92 item 3). -/
def pointerReads (o : Operand) (s : State) : List BusAccess :=
  match o with
  | .indirect w => [.read w, .read ((w &&& 0xFF00#16) ||| ((w + 1#16) &&& 0x00FF#16))]
  | .indexedIndirect n => zeroPagePointerReads (n + s.x)
  | .indirectIndexed n => zeroPagePointerReads n
  | .implied | .accumulator | .immediate _ | .zeroPage _ | .zeroPageX _ | .zeroPageY _ | .absolute _ | .absoluteX _
  | .absoluteY _ | .relative _ => []

/-- The data read of a read instruction (R92 item 4, 40_addressing_modes R177). -/
def dataRead : Opnd → List BusAccess
  | .addr ea => [.read ea]
  | .none | .acc | .imm _ | .target _ => []

/-- The data write of a store (R92 item 5, 40_addressing_modes R177). -/
def dataWrite (v : Byte) : Opnd → List BusAccess
  | .addr ea => [.write ea v]
  | .none | .acc | .imm _ | .target _ => []

/-- The read and the one write of a read-modify-write instruction (R91, 40_addressing_modes R177). -/
def dataModify (f : Byte → Byte) (s : State) : Opnd → List BusAccess
  | .addr ea => [.read ea, .write ea (f (s.read8 ea))]
  | .none | .acc | .imm _ | .target _ => []

/-- Byte pushes from a stack pointer (47_stack R340). -/
def pushWrites : Byte → List Byte → List BusAccess
  | _, [] => []
  | sp, v :: rest => .write (stackAddress sp) v :: pushWrites (sp - 1#8) rest

/-- Byte pulls from a stack pointer (47_stack R340). -/
def pullReads : Nat → Byte → List BusAccess
  | 0, _ => []
  | n + 1, sp => .read (stackAddress (sp + 1#8)) :: pullReads n (sp + 1#8)

/-- The two bytes of a vector (20_memory R84). -/
def vectorReads (vector : Word) : List BusAccess := [.read vector, .read (vector + 1#16)]

/-- The accesses of an interrupt entry (60_exceptions R411): three stack writes, then the vector. -/
def entryAccesses (ret : Word) (status : Byte) (vector : Word) (sp : Byte) : List BusAccess :=
  pushWrites sp [hi ret, lo ret, status] ++ vectorReads vector

/-- The accesses of each operation after its operand and pointer reads (20_memory R89, 40_addressing_modes R177). -/
def operationAccesses (m : Mnemonic) (o : Opnd) (s : State) : List BusAccess :=
  match m with
  | .lda | .ldx | .ldy | .adc | .sbc | .and | .ora | .eor | .cmp | .cpx | .cpy | .bit => dataRead o
  | .sta => dataWrite s.a o
  | .stx => dataWrite s.x o
  | .sty => dataWrite s.y o
  | .asl => dataModify (fun v => (shiftLeft v).value) s o
  | .lsr => dataModify (fun v => (shiftRight v).value) s o
  | .rol => dataModify (fun v => (rotateLeft v s.flags.c).value) s o
  | .ror => dataModify (fun v => (rotateRight v s.flags.c).value) s o
  | .inc => dataModify increment s o
  | .dec => dataModify decrement s o
  | .pha => pushWrites s.sp [s.a]
  | .php => pushWrites s.sp [s.flags.pushedByInstruction]
  | .jsr => pushWrites s.sp [hi (s.pc - 1#16), lo (s.pc - 1#16)]
  | .brk => entryAccesses (s.pc + 1#16) s.flags.pushedByInstruction Config.irqVector s.sp
  | .pla | .plp => pullReads 1 s.sp
  | .rts => pullReads 2 s.sp
  | .rti => pullReads 3 s.sp
  | .jmp | .bpl | .bmi | .bvc | .bvs | .bcc | .bcs | .bne | .beq => []
  | .tax | .tay | .txa | .tya | .tsx | .txs | .inx | .iny | .dex | .dey => []
  | .clc | .cli | .cld | .clv | .sec | .sei | .sed | .nop => []

/-- The accesses of one instruction step (R92); an opcode without an entry is read and nothing else (30_encoding R130). -/
def instructionAccesses (s : State) : List BusAccess :=
  match decode s.fetchBytes with
  | .error _ => [.read s.pc]
  | .ok (i, _) =>
    fetchReads i.length s.pc ++ pointerReads i.operand (s.advancePc i.length) ++
      operationAccesses i.mnemonic (resolve i.operand (s.advancePc i.length)).opnd (s.advancePc i.length)

/-- The core's accesses in each event of the boundary poll, on the state after `latch`: power-up and reset read the reset vector and
make no stack access (70_reset_and_hazards R450, R452). The platform's own actions are no accesses of the core. -/
def eventAccesses (e : Event) (s : State) : List BusAccess :=
  match e with
  | .powerUp | .reset => vectorReads Config.resetVector
  | .noStep => []
  | .nmi => entryAccesses s.pc s.flags.pushedByInterrupt Config.nmiVector s.sp
  | .irq => entryAccesses s.pc s.flags.pushedByInterrupt Config.irqVector s.sp
  | .instruction => instructionAccesses s

/-- The accesses of one step. -/
def stepAccesses (s : State) : List BusAccess := eventAccesses (poll s.nextInputs s.latch) s.latch

end Sys2Proof.Machine
end

