-- ==== Sys2Proof/Machine/Harness.lean ====
section
/-! DEFINITION. The source's test harness (70_reset_and_hazards R462, R463, R470 to R476): program load, code segment, cycle budget. It
is outside the core, and nothing of the core depends on it (R475). -/

namespace Sys2Proof.Machine

/-- The code segment: PC is inside iff `first ≤ PC < stop`, compared as integers without wrap (R471). -/
structure Segment where
  first : Nat
  stop  : Nat
  deriving DecidableEq, Repr

/-- The harness: the core it drives, its code segment, and the cycles consumed (R470 to R472). -/
structure Harness where
  core     : State
  segment  : Segment
  consumed : Nat
  deriving DecidableEq, Repr

/-- `load(base, bytes)` (R470): the bytes stored from `base` on, wrapping and in order (DEDUCED, log 18), and the segment set; no register
changes. -/
def Harness.load (h : Harness) (base : Word) (bytes : List Byte) : Harness :=
  { h with
    core := h.core.setMem (Memory.storeBytes base bytes h.core.mem)
    segment := { first := base.toNat, stop := base.toNat + bytes.length } }

/-- PC is inside the code segment (R471). -/
def Harness.inSegment (h : Harness) : Bool :=
  decide (h.segment.first ≤ h.core.pc.toNat) && decide (h.core.pc.toNat < h.segment.stop)

/-- The default of the parameter CYCLE_COST: the base cycle cost of an opcode (R462, D23); 0 for an opcode without an entry, which no
rule charges. -/
def defaultCycleCost (op : Byte) : Nat :=
  match lookupOpcode op with
  | none => 0
  | some row => row.cycles

/-- `penalty(op)` (R473). -/
def pagePenalty (op : Byte) : Bool :=
  match lookupOpcode op with
  | none => false
  | some row => row.penalty

/-- The page-cross signal of the instruction at PC (40_addressing_modes R163). -/
def crossedAtPc (s : State) : Bool :=
  match decode s.fetchBytes with
  | .error _ => false
  | .ok (i, _) => (resolve i.operand (s.advancePc i.length)).crossed

/-- What a step of the instruction at PC takes from the budget (R472): its cost, and 1 for a page crossing where the penalty applies.
`cost` is the parameter CYCLE_COST. -/
def stepCharge (cost : Byte → Nat) (s : State) : Nat :=
  let op := s.read8 s.pc
  cost op + (if pagePenalty op && crossedAtPc s then 1 else 0)

/-- How a run of the harness ends (R472, R476): `fault` with the core as the fault leaves it. `outOfFuel` is the model's own: the run loop is cut after a number of steps
(log 17). -/
inductive RunEnd where
  | leftSegment (h : Harness)
  | budgetExhausted (h : Harness)
  | fault (f : Fault) (h : Harness)
  | refused (r : Refusal) (h : Harness)
  | outOfFuel (h : Harness)
  deriving DecidableEq, Repr

/-- `run(budget)` (R472): test the segment, then the budget, then take one instruction step (40_addressing_modes R161; the harness
drives no interrupt) and charge it; a faulting step charges nothing. R472 does not say what a run does on a core that is already halted:
here it ends at once in failure, before both tests, since a halted core is never a final successful state (60_exceptions R403; DEDUCED,
log 19). `fuel` bounds the number of steps (log 17). -/
def Harness.run (cost : Byte → Nat) : Nat → Int → Harness → RunEnd
  | 0, _, h => .outOfFuel h
  | fuel + 1, budget, h =>
    if h.core.halted then .fault (.halted h.core) h
    else if h.inSegment = false then .leftSegment h
    else if budget ≤ 0 then .budgetExhausted h
    else
      match instructionStep h.core with
      | .fault f => .fault f { h with core := f.left }
      | .refused r => .refused r h
      | .next s =>
        Harness.run cost fuel (budget - stepCharge cost h.core)
          { h with core := s, consumed := h.consumed + stepCharge cost h.core }

end Sys2Proof.Machine
end

