-- ==== Sys2Proof/Safety.lean ====
section
/-! DEFINITION. What counts as a safe run, in the terms the claims use. -/

namespace Sys2Proof.Machine

/-- The invariant of the core: memory is in its canonical form (so it lists only addresses of the 64 KiB store), and a fault record
is kept exactly while the core is halted (60_exceptions R400, R403). -/
structure State.Inv (s : State) : Prop where
  canonical : s.mem.wf = true
  record    : s.faultRecord.isSome = s.halted

/-- The core takes a step from this state: neither the fault nor the halted core (60_exceptions R402, R403). -/
def State.Steps (s : State) : Prop := ∃ t, step s = .next t

/-- `k` steps from this state reach a state with no fault on the way: a safe run. A halted core is never one (60_exceptions R403). -/
def SafeRun (k : Nat) (s : State) : Prop := ∃ t, Sys2Proof.core.run k s = .next t

end Sys2Proof.Machine
end

