-- ==== Sys2Proof/Certificates/Slice0/Obligations.lean ====
section
/-! DEFINITION. The statements for the provers, and the words they are stated in. Addresses, sums and words are stated over natural
numbers and integers, as spec 00_scope R15 writes them, not over the bit-vector operations of the model. -/

namespace Sys2Proof.Claims

open Sys2Proof.Machine

/-- `word(h, l) = h * 256 + l` (00_scope R15), low byte first as it lies in memory (20_memory R83). -/
def pair (l h : Byte) : Word := BitVec.ofNat 16 (h.toNat * 256 + l.toNat)

/-- `signed8(b)` (00_scope R15). -/
def signed8 (b : Byte) : Int := if b.toNat < 128 then b.toNat else (b.toNat : Int) - 256

/-- The address `(n + k) mod 256` in page 0. -/
def zeroPage (n k : Nat) : Word := BitVec.ofNat 16 ((n + k) % 256)

/-- The address `(w + k) mod 65536`. -/
def plus (w : Word) (k : Nat) : Word := BitVec.ofNat 16 ((w.toNat + k) % 65536)

/-- The little-endian word at `a`, linear (20_memory R84). -/
def wordAt (m : Memory) (a : Word) : Word := pair (m.read a) (m.read (plus a 1))

/-- The word at a zero-page address, both bytes in page 0 (20_memory R86). -/
def zeroPageWord (m : Memory) (z : Nat) : Word := pair (m.read (zeroPage z 0)) (m.read (zeroPage z 1))

/-- The stack address of a stack pointer, 256 + SP (10_state R44). -/
def stackByte (sp : Nat) : Word := BitVec.ofNat 16 (256 + sp % 256)

/-- N and Z of a result: the high bit, and equality with zero (41_alu_flags R200). -/
def nz (f : Flags) (v : Byte) : Flags := { f with n := decide (128 ≤ v.toNat), z := decide (v.toNat = 0) }

/-- Two addresses lie in different pages (40_addressing_modes R163). -/
def crosses (a b : Word) : Bool := decide (a.toNat / 256 ≠ b.toNat / 256)

/-- A read-class result: the register and N, Z. -/
def loadA (s : State) (m : Byte) : State := { s with a := m, flags := nz s.flags m }
def loadX (s : State) (m : Byte) : State := { s with x := m, flags := nz s.flags m }
def loadY (s : State) (m : Byte) : State := { s with y := m, flags := nz s.flags m }

/-- Memory `m'` is `m` but for the one byte at `ea`, which is `v`. -/
def OneByte (m m' : Memory) (ea : Word) (v : Byte) : Prop := m'.read ea = v ∧ ∀ a, a ≠ ea → m'.read a = m.read a

/-- The answer is a next state that differs from `s` in one byte of memory and in the flags given: no register changes. -/
def Stores (s : State) (r : Host.Outcome State Fault Refusal) (ea : Word) (v : Byte) (f : Flags) : Prop :=
  ∃ m', r = .next { s with mem := m', flags := f } ∧ OneByte s.mem m' ea v

/-- A read-modify-write at `ea`: the byte there becomes `f` of it, the flags `g` of it, and nothing else changes. -/
def Modifies (s : State) (r : Host.Outcome State Fault Refusal) (ea : Word) (f : Byte → Byte) (g : Byte → Flags) : Prop :=
  Stores s r ea (f (s.mem.read ea)) (g (s.mem.read ea))

/-- ADC (45_arithmetic_compare R300, 41_alu_flags R202): the 9-bit sum; V as the sign mismatch, which is signed overflow. -/
def adcResult (s : State) (m : Byte) : State :=
  let sum := s.a.toNat + m.toNat + s.flags.c.toNat
  let exact := signed8 s.a + signed8 m + s.flags.c.toNat
  let r := BitVec.ofNat 8 (sum % 256)
  { s with a := r, flags := nz { s.flags with c := decide (256 ≤ sum), v := decide (exact < -128 ∨ 127 < exact) } r }

/-- SBC (45_arithmetic_compare R301, 41_alu_flags R204): the difference with borrow 1 - C. -/
def sbcResult (s : State) (m : Byte) : State :=
  let diff : Int := s.a.toNat - m.toNat - (1 - s.flags.c.toNat)
  let exact := signed8 s.a - signed8 m - (1 - s.flags.c.toNat)
  let r := BitVec.ofNat 8 (diff % 256).toNat
  { s with a := r, flags := nz { s.flags with c := decide (0 ≤ diff), v := decide (exact < -128 ∨ 127 < exact) } r }

/-- The flags of a comparison (41_alu_flags R206). -/
def compared (f : Flags) (r m : Byte) : Flags :=
  { f with c := decide (m.toNat ≤ r.toNat), z := decide (r.toNat = m.toNat),
           n := decide (128 ≤ (r.toNat + 256 - m.toNat) % 256) }

/-- The result of a bitwise operation, bit by bit (41_alu_flags R208). -/
def bitwise (op : Bool → Bool → Bool) (a m : Byte) : Byte :=
  BitVec.ofBoolListLE [op (a.getLsbD 0) (m.getLsbD 0), op (a.getLsbD 1) (m.getLsbD 1), op (a.getLsbD 2) (m.getLsbD 2),
    op (a.getLsbD 3) (m.getLsbD 3), op (a.getLsbD 4) (m.getLsbD 4), op (a.getLsbD 5) (m.getLsbD 5),
    op (a.getLsbD 6) (m.getLsbD 6), op (a.getLsbD 7) (m.getLsbD 7)]

/-- ORA, AND, EOR (44_logical_shift R280 to R282): A combined bit by bit with the operand, N and Z from the result. -/
def logic (s : State) (op : Bool → Bool → Bool) (m : Byte) : State := loadA s (bitwise op s.a m)

/-- The state after a comparison of the register value `r`: only C, Z and N change. -/
def compareWith (s : State) (r m : Byte) : State := { s with flags := compared s.flags r m }

/-- The shifts and rotates as arithmetic (41_alu_flags R209): doubling or halving, and the bit shifted in. -/
def leftOf (c : Nat) (v : Byte) : Byte := BitVec.ofNat 8 ((v.toNat * 2 + c) % 256)
def rightOf (c : Nat) (v : Byte) : Byte := BitVec.ofNat 8 (v.toNat / 2 + 128 * c)
def leftFlags (f : Flags) (c : Nat) (v : Byte) : Flags := nz { f with c := decide (128 ≤ v.toNat) } (leftOf c v)
def rightFlags (f : Flags) (c : Nat) (v : Byte) : Flags := nz { f with c := decide (v.toNat % 2 = 1) } (rightOf c v)

/-- Increment and decrement as arithmetic (41_alu_flags R210). -/
def incOf (v : Byte) : Byte := BitVec.ofNat 8 ((v.toNat + 1) % 256)
def decOf (v : Byte) : Byte := BitVec.ofNat 8 ((v.toNat + 255) % 256)
def incFlags (f : Flags) (v : Byte) : Flags := nz f (incOf v)
def decFlags (f : Flags) (v : Byte) : Flags := nz f (decOf v)

/-- The stored bits of P as a number (10_state R46), bits 5 and 4 aside. -/
def flagBits (f : Flags) : Nat :=
  128 * f.n.toNat + 64 * f.v.toNat + 8 * f.d.toNat + 4 * f.i.toNat + 2 * f.z.toNat + f.c.toNat

/-- The flags a byte loads (10_state R47). -/
def flagsOf (b : Byte) : Flags :=
  { n := b.toNat / 128 % 2 == 1, v := b.toNat / 64 % 2 == 1, d := b.toNat / 8 % 2 == 1, i := b.toNat / 4 % 2 == 1,
    z := b.toNat / 2 % 2 == 1, c := b.toNat % 2 == 1 }

/-- Memory `m'` is `m` with bytes pushed from SP = `sp`, the first one at 256 + sp, each next one below it, within page 1. -/
def Pushed (m m' : Memory) (sp : Nat) (bytes : List Byte) : Prop :=
  (∀ k (h : k < bytes.length), m'.read (stackByte (sp + 256 - k)) = bytes[k]) ∧
  (∀ a, (∀ k, k < bytes.length → a ≠ stackByte (sp + 256 - k)) → m'.read a = m.read a)

/-- The high and the low byte of a word. -/
def highByte (w : Word) : Byte := BitVec.ofNat 8 (w.toNat / 256)
def lowByte (w : Word) : Byte := BitVec.ofNat 8 (w.toNat % 256)

/-- `r` is the interrupt entry of `s` (60_exceptions R411): three bytes pushed, SP - 3, I set, PC from the vector, all else kept. -/
def Enters (s : State) (r : Host.Outcome State Fault Refusal) (ret : Word) (status : Byte) (vector : Word) : Prop :=
  ∃ m', r = .next { s with mem := m', sp := BitVec.ofNat 8 ((s.sp.toNat + 253) % 256), flags := { s.flags with i := true },
                           pc := wordAt m' vector } ∧
    Pushed s.mem m' s.sp.toNat [highByte ret, lowByte ret, status]

/-- The boundary lets an instruction run: no power-up, reset or NMI, not halted, and IRQ low or masked (60_exceptions R413). -/
def Quiet (s : State) : Prop :=
  s.nextInputs.powerOn = false ∧ s.nextInputs.reset = false ∧ s.halted = false ∧ s.nmiPending = false ∧
    s.nextInputs.nmi = false ∧ (s.nextInputs.irq = false ∨ s.flags.i = true)

/-- The state as the step leaves the schedule: the inputs of this boundary are consumed. -/
def afterInputs (s : State) : State := { s with inputs := s.inputs.tail }

/-- The 105 opcode values without a table entry (30_encoding R128), as its text lists them. -/
def undefinedOpcodes : List Byte :=
  [0x02#8, 0x03#8, 0x04#8, 0x07#8, 0x0B#8, 0x0C#8, 0x0F#8, 0x12#8, 0x13#8, 0x14#8, 0x17#8, 0x1A#8, 0x1B#8, 0x1C#8, 0x1F#8] ++
  [0x22#8, 0x23#8, 0x27#8, 0x2B#8, 0x2F#8, 0x32#8, 0x33#8, 0x34#8, 0x37#8, 0x3A#8, 0x3B#8, 0x3C#8, 0x3F#8, 0x42#8, 0x43#8] ++
  [0x44#8, 0x47#8, 0x4B#8, 0x4F#8, 0x52#8, 0x53#8, 0x54#8, 0x57#8, 0x5A#8, 0x5B#8, 0x5C#8, 0x5F#8, 0x62#8, 0x63#8, 0x64#8] ++
  [0x67#8, 0x6B#8, 0x6F#8, 0x72#8, 0x73#8, 0x74#8, 0x77#8, 0x7A#8, 0x7B#8, 0x7C#8, 0x7F#8, 0x80#8, 0x82#8, 0x83#8, 0x87#8] ++
  [0x89#8, 0x8B#8, 0x8F#8, 0x92#8, 0x93#8, 0x97#8, 0x9B#8, 0x9C#8, 0x9E#8, 0x9F#8, 0xA3#8, 0xA7#8, 0xAB#8, 0xAF#8, 0xB2#8] ++
  [0xB3#8, 0xB7#8, 0xBB#8, 0xBF#8, 0xC2#8, 0xC3#8, 0xC7#8, 0xCB#8, 0xCF#8, 0xD2#8, 0xD3#8, 0xD4#8, 0xD7#8, 0xDA#8, 0xDB#8] ++
  [0xDC#8, 0xDF#8, 0xE2#8, 0xE3#8, 0xE7#8, 0xEB#8, 0xEF#8, 0xF2#8, 0xF3#8, 0xF4#8, 0xF7#8, 0xFA#8, 0xFB#8, 0xFC#8, 0xFF#8]

/-- One of the six stored flags. -/
inductive Flag where
  | n | v | d | i | z | c

/-- Reading one flag. -/
def Flag.of : Flag → Flags → Bool
  | .n, f => f.n
  | .v, f => f.v
  | .d, f => f.d
  | .i, f => f.i
  | .z, f => f.z
  | .c, f => f.c

/-- The flags each mnemonic writes, as the rules of files 42 to 49 name them (10_state R49 to R55). -/
def flagsWritten : Mnemonic → List Flag
  | .lda | .ldx | .ldy | .tax | .tay | .txa | .tya | .tsx | .pla => [.n, .z]
  | .inc | .inx | .iny | .dec | .dex | .dey | .and | .ora | .eor => [.n, .z]
  | .asl | .lsr | .rol | .ror | .cmp | .cpx | .cpy => [.n, .z, .c]
  | .adc | .sbc => [.n, .v, .z, .c]
  | .bit => [.n, .v, .z]
  | .plp | .rti => [.n, .v, .d, .i, .z, .c]
  | .clc | .sec => [.c]
  | .cli | .sei | .brk => [.i]
  | .cld | .sed => [.d]
  | .clv => [.v]
  | .sta | .stx | .sty | .txs | .pha | .php | .jmp | .jsr | .rts | .nop => []
  | .bpl | .bmi | .bvc | .bvs | .bcc | .bcs | .bne | .beq => []

/-- The instructions that write each register (10_state R41 to R44); the shifts write A in their accumulator form only. -/
def writesA (i : Instr) : Prop :=
  i.mnemonic ∈ [.lda, .pla, .txa, .tya, .adc, .sbc, .and, .ora, .eor] ∨ i.mode = .accumulator
def writesX (i : Instr) : Prop := i.mnemonic ∈ [.ldx, .tax, .tsx, .inx, .dex]
def writesY (i : Instr) : Prop := i.mnemonic ∈ [.ldy, .tay, .iny, .dey]
def writesSp (i : Instr) : Prop := i.mnemonic ∈ [.txs, .pha, .php, .pla, .plp, .jsr, .rts, .rti, .brk]

/-- The instructions that overwrite PC after the fetch (10_state R45). -/
def writesPc (i : Instr) : Prop :=
  i.mnemonic ∈ [.jmp, .jsr, .rts, .rti, .brk, .bpl, .bmi, .bvc, .bvs, .bcc, .bcs, .bne, .beq]

/-- The instructions that store to memory (20_memory R89, 40_addressing_modes R177). -/
def writesMemory (i : Instr) : Prop :=
  i.mnemonic ∈ [.sta, .stx, .sty, .inc, .dec, .pha, .php, .jsr, .brk] ∨
    (i.mnemonic ∈ [.asl, .lsr, .rol, .ror] ∧ i.mode ≠ .accumulator)

/-- A byte stored at the effective address, where the operand is one (40_addressing_modes R162, R177). -/
def storedAt (o : Opnd) (f : Word → Byte) : List (Word × Byte) :=
  match o with
  | .addr ea => [(ea, f ea)]
  | .none | .acc | .imm _ | .target _ => []

/-- The bytes an instruction stores, each with its address, as the rules of files 42 to 48 give them; the addresses of one instruction
differ. `s` is the state whose PC is past the instruction, so JSR pushes PC - 1 and BRK PC + 1. -/
def storedBytes (i : Instr) (s : State) : List (Word × Byte) :=
  let o := (resolve i.operand s).opnd
  match i.mnemonic with
  | .sta => storedAt o fun _ => s.a
  | .stx => storedAt o fun _ => s.x
  | .sty => storedAt o fun _ => s.y
  | .inc => storedAt o fun ea => incOf (s.mem.read ea)
  | .dec => storedAt o fun ea => decOf (s.mem.read ea)
  | .asl => storedAt o fun ea => leftOf 0 (s.mem.read ea)
  | .lsr => storedAt o fun ea => rightOf 0 (s.mem.read ea)
  | .rol => storedAt o fun ea => leftOf s.flags.c.toNat (s.mem.read ea)
  | .ror => storedAt o fun ea => rightOf s.flags.c.toNat (s.mem.read ea)
  | .pha => [(stackByte s.sp.toNat, s.a)]
  | .php => [(stackByte s.sp.toNat, BitVec.ofNat 8 (flagBits s.flags + 48))]
  | .jsr => [(stackByte s.sp.toNat, highByte (plus s.pc 65535)), (stackByte (s.sp.toNat + 255), lowByte (plus s.pc 65535))]
  | .brk =>
    [(stackByte s.sp.toNat, highByte (plus s.pc 1)), (stackByte (s.sp.toNat + 255), lowByte (plus s.pc 1)),
      (stackByte (s.sp.toNat + 254), BitVec.ofNat 8 (flagBits s.flags + 48))]
  | .lda | .ldx | .ldy | .tax | .tay | .txa | .tya | .tsx | .txs | .inx | .iny | .dex | .dey => []
  | .and | .ora | .eor | .adc | .sbc | .cmp | .cpx | .cpy | .bit => []
  | .pla | .plp | .jmp | .rts | .rti | .bpl | .bmi | .bvc | .bvs | .bcc | .bcs | .bne | .beq => []
  | .clc | .cli | .cld | .clv | .sec | .sei | .sed | .nop => []

/-- The byte at `a` after an instruction: the one it stored there, else the old one. -/
def byteAfter (i : Instr) (s : State) (a : Word) : Byte := ((storedBytes i s).lookup a).getD (s.mem.read a)

/-- The state with D replaced. -/
def withD (d : Bool) (s : State) : State := { s with flags := { s.flags with d := d } }

/-- A next state mapped by a function. -/
def mapNext (f : State → State) : Host.Outcome State Fault Refusal → Host.Outcome State Fault Refusal
  | .next s => .next (f s)
  | .fault r => .fault r
  | .refused r => .refused r

end Sys2Proof.Claims

open Sys2Proof Sys2Proof.Machine

/-- Each of the 151 rows of the opcode table decodes to its instruction, with its operand assembled from its bytes. Derived from
30_encoding.md section 4; 30_encoding.md section 2; 93_implementation_defined.md G2. The byte values are marked general knowledge
by the spec itself. -/
def Obligations.OpcodeTableDecodes : Prop :=
  ∀ (n l h : Byte) (rest : List Byte),
  decode (0x00#8 :: rest) = .ok (.brk, rest) ∧
  decode (0x01#8 :: n :: rest) = .ok (.oraIndX n, rest) ∧
  decode (0x05#8 :: n :: rest) = .ok (.oraZp n, rest) ∧
  decode (0x06#8 :: n :: rest) = .ok (.aslZp n, rest) ∧
  decode (0x08#8 :: rest) = .ok (.php, rest) ∧
  decode (0x09#8 :: n :: rest) = .ok (.oraImm n, rest) ∧
  decode (0x0A#8 :: rest) = .ok (.aslAcc, rest) ∧
  decode (0x0D#8 :: l :: h :: rest) = .ok (.oraAbs (Claims.pair l h), rest) ∧
  decode (0x0E#8 :: l :: h :: rest) = .ok (.aslAbs (Claims.pair l h), rest) ∧
  decode (0x10#8 :: n :: rest) = .ok (.bpl (Claims.signed8 n), rest) ∧
  decode (0x11#8 :: n :: rest) = .ok (.oraIndY n, rest) ∧
  decode (0x15#8 :: n :: rest) = .ok (.oraZpX n, rest) ∧
  decode (0x16#8 :: n :: rest) = .ok (.aslZpX n, rest) ∧
  decode (0x18#8 :: rest) = .ok (.clc, rest) ∧
  decode (0x19#8 :: l :: h :: rest) = .ok (.oraAbsY (Claims.pair l h), rest) ∧
  decode (0x1D#8 :: l :: h :: rest) = .ok (.oraAbsX (Claims.pair l h), rest) ∧
  decode (0x1E#8 :: l :: h :: rest) = .ok (.aslAbsX (Claims.pair l h), rest) ∧
  decode (0x20#8 :: l :: h :: rest) = .ok (.jsr (Claims.pair l h), rest) ∧
  decode (0x21#8 :: n :: rest) = .ok (.andIndX n, rest) ∧
  decode (0x24#8 :: n :: rest) = .ok (.bitZp n, rest) ∧
  decode (0x25#8 :: n :: rest) = .ok (.andZp n, rest) ∧
  decode (0x26#8 :: n :: rest) = .ok (.rolZp n, rest) ∧
  decode (0x28#8 :: rest) = .ok (.plp, rest) ∧
  decode (0x29#8 :: n :: rest) = .ok (.andImm n, rest) ∧
  decode (0x2A#8 :: rest) = .ok (.rolAcc, rest) ∧
  decode (0x2C#8 :: l :: h :: rest) = .ok (.bitAbs (Claims.pair l h), rest) ∧
  decode (0x2D#8 :: l :: h :: rest) = .ok (.andAbs (Claims.pair l h), rest) ∧
  decode (0x2E#8 :: l :: h :: rest) = .ok (.rolAbs (Claims.pair l h), rest) ∧
  decode (0x30#8 :: n :: rest) = .ok (.bmi (Claims.signed8 n), rest) ∧
  decode (0x31#8 :: n :: rest) = .ok (.andIndY n, rest) ∧
  decode (0x35#8 :: n :: rest) = .ok (.andZpX n, rest) ∧
  decode (0x36#8 :: n :: rest) = .ok (.rolZpX n, rest) ∧
  decode (0x38#8 :: rest) = .ok (.sec, rest) ∧
  decode (0x39#8 :: l :: h :: rest) = .ok (.andAbsY (Claims.pair l h), rest) ∧
  decode (0x3D#8 :: l :: h :: rest) = .ok (.andAbsX (Claims.pair l h), rest) ∧
  decode (0x3E#8 :: l :: h :: rest) = .ok (.rolAbsX (Claims.pair l h), rest) ∧
  decode (0x40#8 :: rest) = .ok (.rti, rest) ∧
  decode (0x41#8 :: n :: rest) = .ok (.eorIndX n, rest) ∧
  decode (0x45#8 :: n :: rest) = .ok (.eorZp n, rest) ∧
  decode (0x46#8 :: n :: rest) = .ok (.lsrZp n, rest) ∧
  decode (0x48#8 :: rest) = .ok (.pha, rest) ∧
  decode (0x49#8 :: n :: rest) = .ok (.eorImm n, rest) ∧
  decode (0x4A#8 :: rest) = .ok (.lsrAcc, rest) ∧
  decode (0x4C#8 :: l :: h :: rest) = .ok (.jmpAbs (Claims.pair l h), rest) ∧
  decode (0x4D#8 :: l :: h :: rest) = .ok (.eorAbs (Claims.pair l h), rest) ∧
  decode (0x4E#8 :: l :: h :: rest) = .ok (.lsrAbs (Claims.pair l h), rest) ∧
  decode (0x50#8 :: n :: rest) = .ok (.bvc (Claims.signed8 n), rest) ∧
  decode (0x51#8 :: n :: rest) = .ok (.eorIndY n, rest) ∧
  decode (0x55#8 :: n :: rest) = .ok (.eorZpX n, rest) ∧
  decode (0x56#8 :: n :: rest) = .ok (.lsrZpX n, rest) ∧
  decode (0x58#8 :: rest) = .ok (.cli, rest) ∧
  decode (0x59#8 :: l :: h :: rest) = .ok (.eorAbsY (Claims.pair l h), rest) ∧
  decode (0x5D#8 :: l :: h :: rest) = .ok (.eorAbsX (Claims.pair l h), rest) ∧
  decode (0x5E#8 :: l :: h :: rest) = .ok (.lsrAbsX (Claims.pair l h), rest) ∧
  decode (0x60#8 :: rest) = .ok (.rts, rest) ∧
  decode (0x61#8 :: n :: rest) = .ok (.adcIndX n, rest) ∧
  decode (0x65#8 :: n :: rest) = .ok (.adcZp n, rest) ∧
  decode (0x66#8 :: n :: rest) = .ok (.rorZp n, rest) ∧
  decode (0x68#8 :: rest) = .ok (.pla, rest) ∧
  decode (0x69#8 :: n :: rest) = .ok (.adcImm n, rest) ∧
  decode (0x6A#8 :: rest) = .ok (.rorAcc, rest) ∧
  decode (0x6C#8 :: l :: h :: rest) = .ok (.jmpInd (Claims.pair l h), rest) ∧
  decode (0x6D#8 :: l :: h :: rest) = .ok (.adcAbs (Claims.pair l h), rest) ∧
  decode (0x6E#8 :: l :: h :: rest) = .ok (.rorAbs (Claims.pair l h), rest) ∧
  decode (0x70#8 :: n :: rest) = .ok (.bvs (Claims.signed8 n), rest) ∧
  decode (0x71#8 :: n :: rest) = .ok (.adcIndY n, rest) ∧
  decode (0x75#8 :: n :: rest) = .ok (.adcZpX n, rest) ∧
  decode (0x76#8 :: n :: rest) = .ok (.rorZpX n, rest) ∧
  decode (0x78#8 :: rest) = .ok (.sei, rest) ∧
  decode (0x79#8 :: l :: h :: rest) = .ok (.adcAbsY (Claims.pair l h), rest) ∧
  decode (0x7D#8 :: l :: h :: rest) = .ok (.adcAbsX (Claims.pair l h), rest) ∧
  decode (0x7E#8 :: l :: h :: rest) = .ok (.rorAbsX (Claims.pair l h), rest) ∧
  decode (0x81#8 :: n :: rest) = .ok (.staIndX n, rest) ∧
  decode (0x84#8 :: n :: rest) = .ok (.styZp n, rest) ∧
  decode (0x85#8 :: n :: rest) = .ok (.staZp n, rest) ∧
  decode (0x86#8 :: n :: rest) = .ok (.stxZp n, rest) ∧
  decode (0x88#8 :: rest) = .ok (.dey, rest) ∧
  decode (0x8A#8 :: rest) = .ok (.txa, rest) ∧
  decode (0x8C#8 :: l :: h :: rest) = .ok (.styAbs (Claims.pair l h), rest) ∧
  decode (0x8D#8 :: l :: h :: rest) = .ok (.staAbs (Claims.pair l h), rest) ∧
  decode (0x8E#8 :: l :: h :: rest) = .ok (.stxAbs (Claims.pair l h), rest) ∧
  decode (0x90#8 :: n :: rest) = .ok (.bcc (Claims.signed8 n), rest) ∧
  decode (0x91#8 :: n :: rest) = .ok (.staIndY n, rest) ∧
  decode (0x94#8 :: n :: rest) = .ok (.styZpX n, rest) ∧
  decode (0x95#8 :: n :: rest) = .ok (.staZpX n, rest) ∧
  decode (0x96#8 :: n :: rest) = .ok (.stxZpY n, rest) ∧
  decode (0x98#8 :: rest) = .ok (.tya, rest) ∧
  decode (0x99#8 :: l :: h :: rest) = .ok (.staAbsY (Claims.pair l h), rest) ∧
  decode (0x9A#8 :: rest) = .ok (.txs, rest) ∧
  decode (0x9D#8 :: l :: h :: rest) = .ok (.staAbsX (Claims.pair l h), rest) ∧
  decode (0xA0#8 :: n :: rest) = .ok (.ldyImm n, rest) ∧
  decode (0xA1#8 :: n :: rest) = .ok (.ldaIndX n, rest) ∧
  decode (0xA2#8 :: n :: rest) = .ok (.ldxImm n, rest) ∧
  decode (0xA4#8 :: n :: rest) = .ok (.ldyZp n, rest) ∧
  decode (0xA5#8 :: n :: rest) = .ok (.ldaZp n, rest) ∧
  decode (0xA6#8 :: n :: rest) = .ok (.ldxZp n, rest) ∧
  decode (0xA8#8 :: rest) = .ok (.tay, rest) ∧
  decode (0xA9#8 :: n :: rest) = .ok (.ldaImm n, rest) ∧
  decode (0xAA#8 :: rest) = .ok (.tax, rest) ∧
  decode (0xAC#8 :: l :: h :: rest) = .ok (.ldyAbs (Claims.pair l h), rest) ∧
  decode (0xAD#8 :: l :: h :: rest) = .ok (.ldaAbs (Claims.pair l h), rest) ∧
  decode (0xAE#8 :: l :: h :: rest) = .ok (.ldxAbs (Claims.pair l h), rest) ∧
  decode (0xB0#8 :: n :: rest) = .ok (.bcs (Claims.signed8 n), rest) ∧
  decode (0xB1#8 :: n :: rest) = .ok (.ldaIndY n, rest) ∧
  decode (0xB4#8 :: n :: rest) = .ok (.ldyZpX n, rest) ∧
  decode (0xB5#8 :: n :: rest) = .ok (.ldaZpX n, rest) ∧
  decode (0xB6#8 :: n :: rest) = .ok (.ldxZpY n, rest) ∧
  decode (0xB8#8 :: rest) = .ok (.clv, rest) ∧
  decode (0xB9#8 :: l :: h :: rest) = .ok (.ldaAbsY (Claims.pair l h), rest) ∧
  decode (0xBA#8 :: rest) = .ok (.tsx, rest) ∧
  decode (0xBC#8 :: l :: h :: rest) = .ok (.ldyAbsX (Claims.pair l h), rest) ∧
  decode (0xBD#8 :: l :: h :: rest) = .ok (.ldaAbsX (Claims.pair l h), rest) ∧
  decode (0xBE#8 :: l :: h :: rest) = .ok (.ldxAbsY (Claims.pair l h), rest) ∧
  decode (0xC0#8 :: n :: rest) = .ok (.cpyImm n, rest) ∧
  decode (0xC1#8 :: n :: rest) = .ok (.cmpIndX n, rest) ∧
  decode (0xC4#8 :: n :: rest) = .ok (.cpyZp n, rest) ∧
  decode (0xC5#8 :: n :: rest) = .ok (.cmpZp n, rest) ∧
  decode (0xC6#8 :: n :: rest) = .ok (.decZp n, rest) ∧
  decode (0xC8#8 :: rest) = .ok (.iny, rest) ∧
  decode (0xC9#8 :: n :: rest) = .ok (.cmpImm n, rest) ∧
  decode (0xCA#8 :: rest) = .ok (.dex, rest) ∧
  decode (0xCC#8 :: l :: h :: rest) = .ok (.cpyAbs (Claims.pair l h), rest) ∧
  decode (0xCD#8 :: l :: h :: rest) = .ok (.cmpAbs (Claims.pair l h), rest) ∧
  decode (0xCE#8 :: l :: h :: rest) = .ok (.decAbs (Claims.pair l h), rest) ∧
  decode (0xD0#8 :: n :: rest) = .ok (.bne (Claims.signed8 n), rest) ∧
  decode (0xD1#8 :: n :: rest) = .ok (.cmpIndY n, rest) ∧
  decode (0xD5#8 :: n :: rest) = .ok (.cmpZpX n, rest) ∧
  decode (0xD6#8 :: n :: rest) = .ok (.decZpX n, rest) ∧
  decode (0xD8#8 :: rest) = .ok (.cld, rest) ∧
  decode (0xD9#8 :: l :: h :: rest) = .ok (.cmpAbsY (Claims.pair l h), rest) ∧
  decode (0xDD#8 :: l :: h :: rest) = .ok (.cmpAbsX (Claims.pair l h), rest) ∧
  decode (0xDE#8 :: l :: h :: rest) = .ok (.decAbsX (Claims.pair l h), rest) ∧
  decode (0xE0#8 :: n :: rest) = .ok (.cpxImm n, rest) ∧
  decode (0xE1#8 :: n :: rest) = .ok (.sbcIndX n, rest) ∧
  decode (0xE4#8 :: n :: rest) = .ok (.cpxZp n, rest) ∧
  decode (0xE5#8 :: n :: rest) = .ok (.sbcZp n, rest) ∧
  decode (0xE6#8 :: n :: rest) = .ok (.incZp n, rest) ∧
  decode (0xE8#8 :: rest) = .ok (.inx, rest) ∧
  decode (0xE9#8 :: n :: rest) = .ok (.sbcImm n, rest) ∧
  decode (0xEA#8 :: rest) = .ok (.nop, rest) ∧
  decode (0xEC#8 :: l :: h :: rest) = .ok (.cpxAbs (Claims.pair l h), rest) ∧
  decode (0xED#8 :: l :: h :: rest) = .ok (.sbcAbs (Claims.pair l h), rest) ∧
  decode (0xEE#8 :: l :: h :: rest) = .ok (.incAbs (Claims.pair l h), rest) ∧
  decode (0xF0#8 :: n :: rest) = .ok (.beq (Claims.signed8 n), rest) ∧
  decode (0xF1#8 :: n :: rest) = .ok (.sbcIndY n, rest) ∧
  decode (0xF5#8 :: n :: rest) = .ok (.sbcZpX n, rest) ∧
  decode (0xF6#8 :: n :: rest) = .ok (.incZpX n, rest) ∧
  decode (0xF8#8 :: rest) = .ok (.sed, rest) ∧
  decode (0xF9#8 :: l :: h :: rest) = .ok (.sbcAbsY (Claims.pair l h), rest) ∧
  decode (0xFD#8 :: l :: h :: rest) = .ok (.sbcAbsX (Claims.pair l h), rest) ∧
  decode (0xFE#8 :: l :: h :: rest) = .ok (.incAbsX (Claims.pair l h), rest)

/-- Exactly the 105 listed opcode values are rejected, whatever follows them. Derived from 30_encoding.md section 5;
92_eei_decisions.md D4. The choice of the set is the spec's own decision D4. -/
def Obligations.UndefinedOpcodesAreRejected : Prop :=
  ∀ (op b1 b2 : Byte) (rest : List Byte),
  (op ∈ Claims.undefinedOpcodes → decode (op :: b1 :: b2 :: rest) = .error (.unknownOpcode op)) ∧
  (op ∉ Claims.undefinedOpcodes → ∃ i left, decode (op :: b1 :: b2 :: rest) = .ok (i, left))

/-- Decoding an encoded well-formed instruction gives it back. Derived from 30_encoding.md section 2; 30_encoding.md section 4. -/
def Obligations.DecodeOfEncodeIsTheInstruction : Prop :=
  ∀ (i : Instr) (rest : List Byte), i.wellFormed = true → decode (encode i ++ rest) = .ok (i, rest)

/-- What decodes is well-formed and encodes back to the bytes it was read from. Derived from 30_encoding.md section 2;
30_encoding.md section 4. -/
def Obligations.EncodeOfDecodeIsTheBytes : Prop :=
  ∀ (bs rest : List Byte) (i : Instr),
  decode bs = .ok (i, rest) → i.wellFormed = true ∧ encode i ++ rest = bs

/-- An instruction is one opcode byte and the operand bytes of its mode, told from the opcode byte alone. Rule R120. -/
def Obligations.InstructionLengthIsFixedByMode : Prop :=
  (∀ i : Instr, (encode i).length = i.length) ∧
  (∀ i : Instr, i.length =
    match i.mode with
    | .implied | .accumulator => 1
    | .absolute | .absoluteX | .absoluteY | .indirect => 3
    | .immediate | .zeroPage | .zeroPageX | .zeroPageY | .relative | .indexedIndirect | .indirectIndexed => 2) ∧
  (∀ i j : Instr, (encode i).head? = (encode j).head? → i.length = j.length)

/-- Sanity: sample instruction words, one of each shape, decode to what they stand for. Derived from 30_encoding.md section 4;
95_test_vectors.md section 1. -/
def Obligations.SampleWordsDecode : Prop :=
  decodeTableWord 16 0x42A9 = some (.ldaImm 0x42#8) ∧ decodeTableWord 24 0x02008D = some (.staAbs 0x0200#16) ∧
  decodeTableWord 8 0xAA = some .tax ∧ decodeTableWord 16 0xFBD0 = some (.bne (-5)) ∧
  decodeTableWord 24 0x30FF6C = some (.jmpInd 0x30FF#16) ∧ decodeTableWord 8 0x0A = some .aslAcc ∧
  decodeTableWord 16 0xF0B6 = some (.ldxZpY 0xF0#8) ∧ decodeTableWord 16 0x1091 = some (.staIndY 0x10#8) ∧
  decodeTableWord 16 0x1081 = some (.staIndX 0x10#8) ∧ decodeTableWord 8 0x00 = some .brk ∧ decodeTableWord 8 0x02 = none

/-- A step runs the instruction decoded at PC, with PC moved past it. Derived from 40_addressing_modes.md section 1;
60_exceptions.md section 2. -/
def Obligations.StepRunsTheDecodedInstruction : Prop :=
  ∀ (s : State) (i : Instr) (rest : List Byte), Claims.Quiet s →
  decode [s.mem.read s.pc, s.mem.read (Claims.plus s.pc 1), s.mem.read (Claims.plus s.pc 2)] = .ok (i, rest) →
  i.wellFormed = true ∧ step s = exec i { Claims.afterInputs s with pc := Claims.plus s.pc i.length }

/-- An opcode without an entry faults, leaving PC at it and changing nothing but the halt and the record. Derived from
60_exceptions.md section 1; 92_eei_decisions.md D3. That PC stays and what is recorded is the spec's own decision D3. -/
def Obligations.UndefinedOpcodeFaults : Prop :=
  ∀ s : State, Claims.Quiet s → s.mem.read s.pc ∈ Claims.undefinedOpcodes →
  step s = .fault (.unknownOpcode (s.mem.read s.pc) s.pc
    { Claims.afterInputs s with halted := true, faultRecord := some (.unknownOpcode (s.mem.read s.pc) s.pc) })

/-- At a boundary: power-up, then reset, then (halted) no step, then NMI, then unmasked IRQ, then the instruction. Derived from
60_exceptions.md section 2; 92_eei_decisions.md D10. The order is the spec's decision D10; that an arriving event counts at once
is log 4. -/
def Obligations.BoundaryPollOrder : Prop :=
  ∀ s : State,
  let p := s.nextInputs
  let t : State := { Claims.afterInputs s with nmiPending := s.nmiPending || p.nmi }
  (p.powerOn = true → step s = .next (powerUp t)) ∧
  (p.powerOn = false → p.reset = true → step s = .next (resetSequence t)) ∧
  (p.powerOn = false → p.reset = false → s.halted = true → step s = .fault (.halted t)) ∧
  (p.powerOn = false → p.reset = false → s.halted = false → t.nmiPending = true → step s = .next (takeNmi t)) ∧
  (p.powerOn = false → p.reset = false → s.halted = false → t.nmiPending = false → p.irq = true → s.flags.i = false →
    step s = .next (takeIrq t)) ∧
  (p.powerOn = false → p.reset = false → s.halted = false → t.nmiPending = false → (p.irq = false ∨ s.flags.i = true) →
    step s = instructionStep t)

/-- A halted core takes no step until reset or power-up, and either one ends the halt. Derived from 60_exceptions.md section 1;
60_exceptions.md section 4; 92_eei_decisions.md D19. Decision D19 of the spec; that the record goes with the halt is log 7. -/
def Obligations.HaltedCoreOnlyLeavesByReset : Prop :=
  ∀ s : State, s.halted = true →
  (∀ t, step s = .next t → (s.nextInputs.powerOn = true ∨ s.nextInputs.reset = true)) ∧
  ((s.nextInputs.powerOn = true ∨ s.nextInputs.reset = true) →
    ∃ t, step s = .next t ∧ t.halted = false ∧ t.faultRecord = none ∧ t.nmiPending = false)

/-- NMI entry: PC and a status byte with B = 0 pushed, I set, PC from 0xFFFA, the latch cleared. Derived from 60_exceptions.md
section 2; 10_state.md section 2; 92_eei_decisions.md D7, D9. Decisions D7 and D9 of the spec; that an NMI which arrives at this
very boundary is taken at it is log 4. -/
def Obligations.NmiEntry : Prop :=
  ∀ s : State, s.nextInputs.powerOn = false → s.nextInputs.reset = false → s.halted = false →
  (s.nmiPending = true ∨ s.nextInputs.nmi = true) →
  Claims.Enters { Claims.afterInputs s with nmiPending := false } (step s) s.pc
    (BitVec.ofNat 8 (Claims.flagBits s.flags + 32)) 0xFFFA#16

/-- IRQ entry: taken when irq is high and I is 0; PC and a status byte with B = 0 pushed, I set, PC from 0xFFFE. Derived from
60_exceptions.md section 2; 10_state.md section 2; 92_eei_decisions.md D7, D8. Decisions D7 and D8 of the spec; that an arriving
NMI comes before the IRQ of its own boundary is log 4. -/
def Obligations.IrqEntry : Prop :=
  ∀ s : State, s.nextInputs.powerOn = false → s.nextInputs.reset = false → s.halted = false → s.nmiPending = false →
  s.nextInputs.nmi = false → s.nextInputs.irq = true → s.flags.i = false →
  Claims.Enters (Claims.afterInputs s) (step s) s.pc (BitVec.ofNat 8 (Claims.flagBits s.flags + 32)) 0xFFFE#16

/-- Power-up: the register and flag values, the cleared range, and PC from the reset vector. Derived from 70_reset_and_hazards.md
section 1; 10_state.md section 3; 92_eei_decisions.md D17, D19. That halted and the NMI latch become 0 is the spec's decision D19;
that the fault record goes with them is log 7, keeping the rest of memory log 13, the open range log 5. -/
def Obligations.PowerUpSequence : Prop :=
  ∀ (range : Option Config.AddressRange) (s : State),
  ∃ m', powerUpWith range s = { s with
        a := 0#8, x := 0#8, y := 0#8, sp := 0xFD#8, mem := m', pc := Claims.wordAt m' 0xFFFC#16,
        flags := { n := false, v := false, d := false, i := true, z := false, c := false },
        halted := false, faultRecord := none, nmiPending := false } ∧
    ∀ a, m'.read a =
      match range with
      | none => s.mem.read a
      | some r => if r.first.toNat ≤ a.toNat ∧ a.toNat ≤ r.last.toNat then 0#8 else s.mem.read a

/-- Reset: SP - 3 with no push, I set, PC from the reset vector; registers, other flags and memory outside the device registers
kept. Derived from 70_reset_and_hazards.md section 1; 10_state.md section 3; 92_eei_decisions.md D17, D19. That halted and the NMI
latch become 0 is the spec's decision D19; that the fault record goes with them is log 7, the open platform action log 6. -/
def Obligations.ResetSequence : Prop :=
  ∀ (registers : List Word) (byteOf : Memory → Word → Byte) (s : State),
  ∃ m', resetWith registers byteOf s = { s with
        sp := BitVec.ofNat 8 ((s.sp.toNat + 253) % 256),
        flags := { s.flags with i := true }, mem := m', pc := Claims.wordAt m' 0xFFFC#16,
        halted := false, faultRecord := none, nmiPending := false } ∧
    (∀ a, a ∉ registers → m'.read a = s.mem.read a) ∧ (∀ a, a ∈ registers → m'.read a = byteOf s.mem a)

/-- State.reset is what power-up makes of the zero-initialised store, whatever range the platform clears. Derived from
70_reset_and_hazards.md section 1; 20_memory.md section 1; 92_eei_decisions.md D18. That the model starts there is log 1, the zero
memory log 2, the empty schedule log 3, the open range log 5, the absent fault record log 7. -/
def Obligations.ResetStateIsPowerUpOfZeroMemory : Prop :=
  ∀ s : State, s.mem = [] → s.inputs = [] →
  powerUp s = State.reset ∧ State.reset.flags.view = 0x34#8 ∧ State.reset.pc = Claims.wordAt State.reset.mem 0xFFFC#16

/-- The reset state meets the invariant. Derived from 20_memory.md section 1; 60_exceptions.md section 1. The reset state is log
1, the canonical form the model's own (log 2), the record log 7. -/
def Obligations.ResetStateMeetsTheInvariant : Prop :=
  State.reset.Inv

/-- Every step keeps the invariant, for next states and for the states faults leave. Derived from 20_memory.md section 1;
60_exceptions.md section 1; 70_reset_and_hazards.md section 1. The canonical form is the model's (log 2), the record log 7. -/
def Obligations.StepKeepsTheInvariant : Prop :=
  ∀ s : State, s.Inv →
  (∀ t, step s = .next t → t.Inv) ∧
  (∀ op a t, step s = .fault (.unknownOpcode op a t) → t.Inv ∧ t.halted = true) ∧
  (∀ t, step s = .fault (.halted t) → t.Inv ∧ t.halted = true)

/-- A read returns the byte last written there; a write leaves every other address alone and keeps the canonical form. Derived
from 20_memory.md section 1; 20_memory.md section 5; 92_eei_decisions.md D13. Flat memory is the spec's decision D13; the
canonical form, and so the third clause, is the model's own (log 2). -/
def Obligations.ReadReturnsLastWrite : Prop :=
  ∀ (m : Memory) (a b : Word) (v : Byte),
  (m.write a v).read a = v ∧ (b ≠ a → (m.write a v).read b = m.read b) ∧ (m.wf = true → (m.write a v).wf = true)

/-- Two canonical memories that read the same everywhere are equal. Derived from 20_memory.md section 1. The canonical form is the
model's own (log 2). -/
def Obligations.CanonicalMemoriesAreEqualByReads : Prop :=
  ∀ m m' : Memory, m.wf = true → m'.wf = true → (∀ a : Word, m.read a = m'.read a) → m = m'

/-- The three 16-bit reads: linear, page-wrapped, zero-page; each little-endian. Derived from 20_memory.md section 2;
90_conflicts.md C1. Which read is used where is the spec's resolution C1. -/
def Obligations.WordReadsAreLittleEndian : Prop :=
  ∀ (m : Memory) (a : Word) (z : Byte),
  m.readWord a = Claims.wordAt m a ∧
  m.readWordPageWrap a = Claims.pair (m.read a) (m.read (BitVec.ofNat 16 (a.toNat / 256 * 256 + (a.toNat + 1) % 256))) ∧
  m.readWordZeroPage z = Claims.zeroPageWord m z.toNat

/-- The resolved operand and page-cross signal of each address mode. Rules R167, R168, R170, R172, R173, R174, R175. -/
def Obligations.AddressingModesResolve : Prop :=
  ∀ (n : Byte) (w : Word) (s : State),
  resolve (.zeroPage n) s = ⟨.addr (Claims.zeroPage n.toNat 0), false⟩ ∧
  resolve (.zeroPageX n) s = ⟨.addr (Claims.zeroPage n.toNat s.x.toNat), false⟩ ∧
  resolve (.zeroPageY n) s = ⟨.addr (Claims.zeroPage n.toNat s.y.toNat), false⟩ ∧
  resolve (.absolute w) s = ⟨.addr w, false⟩ ∧
  resolve (.absoluteX w) s = ⟨.addr (Claims.plus w s.x.toNat), Claims.crosses w (Claims.plus w s.x.toNat)⟩ ∧
  resolve (.absoluteY w) s = ⟨.addr (Claims.plus w s.y.toNat), Claims.crosses w (Claims.plus w s.y.toNat)⟩ ∧
  resolve (.indexedIndirect n) s = ⟨.addr (Claims.zeroPageWord s.mem (n.toNat + s.x.toNat)), false⟩ ∧
  (let base := Claims.zeroPageWord s.mem n.toNat
   resolve (.indirectIndexed n) s = ⟨.addr (Claims.plus base s.y.toNat), Claims.crosses base (Claims.plus base s.y.toNat)⟩) ∧
  resolve (.indirect w) s =
    ⟨.addr (Claims.pair (s.mem.read w) (s.mem.read (BitVec.ofNat 16 (w.toNat / 256 * 256 + (w.toNat + 1) % 256)))), false⟩ ∧
  resolve (.zeroPage n) s = ⟨.addr (eaZeroPage n), false⟩ ∧ (resolve (.zeroPageX n) s).opnd = .addr (eaZeroPageX n s) ∧
  (resolve (.zeroPageY n) s).opnd = .addr (eaZeroPageY n s) ∧ (resolve (.absolute w) s).opnd = .addr (eaAbsolute w) ∧
  (resolve (.absoluteX w) s).opnd = .addr (eaAbsoluteX w s) ∧ (resolve (.absoluteY w) s).opnd = .addr (eaAbsoluteY w s) ∧
  (resolve (.indexedIndirect n) s).opnd = .addr (eaIndexedIndirect n s) ∧
  (resolve (.indirectIndexed n) s).opnd = .addr (eaIndirectIndexed n s) ∧
  (resolve (.indirect w) s).opnd = .addr (eaIndirect w s)

/-- LDA in its eight forms: A becomes the operand byte, N and Z follow it, nothing else changes. Rule R230. -/
def Obligations.LdaLoadsAccumulator : Prop :=
  ∀ (n : Byte) (w : Word) (s : State),
  exec (.ldaIndX n) s = .next (Claims.loadA s (s.mem.read (eaIndexedIndirect n s))) ∧
  exec (.ldaZp n) s = .next (Claims.loadA s (s.mem.read (eaZeroPage n))) ∧
  exec (.ldaImm n) s = .next (Claims.loadA s n) ∧
  exec (.ldaAbs w) s = .next (Claims.loadA s (s.mem.read (eaAbsolute w))) ∧
  exec (.ldaIndY n) s = .next (Claims.loadA s (s.mem.read (eaIndirectIndexed n s))) ∧
  exec (.ldaZpX n) s = .next (Claims.loadA s (s.mem.read (eaZeroPageX n s))) ∧
  exec (.ldaAbsY w) s = .next (Claims.loadA s (s.mem.read (eaAbsoluteY w s))) ∧
  exec (.ldaAbsX w) s = .next (Claims.loadA s (s.mem.read (eaAbsoluteX w s)))

/-- LDX and LDY in their five forms each: the index register becomes the operand byte, N and Z follow it. Rules R231, R232. -/
def Obligations.LdxLdyLoadIndex : Prop :=
  ∀ (n : Byte) (w : Word) (s : State),
  exec (.ldxImm n) s = .next (Claims.loadX s n) ∧
  exec (.ldxZp n) s = .next (Claims.loadX s (s.mem.read (eaZeroPage n))) ∧
  exec (.ldxAbs w) s = .next (Claims.loadX s (s.mem.read (eaAbsolute w))) ∧
  exec (.ldxZpY n) s = .next (Claims.loadX s (s.mem.read (eaZeroPageY n s))) ∧
  exec (.ldxAbsY w) s = .next (Claims.loadX s (s.mem.read (eaAbsoluteY w s))) ∧
  exec (.ldyImm n) s = .next (Claims.loadY s n) ∧
  exec (.ldyZp n) s = .next (Claims.loadY s (s.mem.read (eaZeroPage n))) ∧
  exec (.ldyAbs w) s = .next (Claims.loadY s (s.mem.read (eaAbsolute w))) ∧
  exec (.ldyZpX n) s = .next (Claims.loadY s (s.mem.read (eaZeroPageX n s))) ∧
  exec (.ldyAbsX w) s = .next (Claims.loadY s (s.mem.read (eaAbsoluteX w s)))

/-- STA in its seven forms: one byte at the effective address becomes A; no register, flag or other byte changes. Rule R233. -/
def Obligations.StaStoresAccumulator : Prop :=
  ∀ (n : Byte) (w : Word) (s : State),
  Claims.Stores s (exec (.staIndX n) s) (eaIndexedIndirect n s) s.a s.flags ∧
  Claims.Stores s (exec (.staZp n) s) (eaZeroPage n) s.a s.flags ∧
  Claims.Stores s (exec (.staAbs w) s) (eaAbsolute w) s.a s.flags ∧
  Claims.Stores s (exec (.staIndY n) s) (eaIndirectIndexed n s) s.a s.flags ∧
  Claims.Stores s (exec (.staZpX n) s) (eaZeroPageX n s) s.a s.flags ∧
  Claims.Stores s (exec (.staAbsY w) s) (eaAbsoluteY w s) s.a s.flags ∧
  Claims.Stores s (exec (.staAbsX w) s) (eaAbsoluteX w s) s.a s.flags

/-- STX and STY in their three forms each: one byte at the effective address becomes X or Y. Rules R234, R235. -/
def Obligations.StxStyStoreIndex : Prop :=
  ∀ (n : Byte) (w : Word) (s : State),
  Claims.Stores s (exec (.stxZp n) s) (eaZeroPage n) s.x s.flags ∧
  Claims.Stores s (exec (.stxAbs w) s) (eaAbsolute w) s.x s.flags ∧
  Claims.Stores s (exec (.stxZpY n) s) (eaZeroPageY n s) s.x s.flags ∧
  Claims.Stores s (exec (.styZp n) s) (eaZeroPage n) s.y s.flags ∧
  Claims.Stores s (exec (.styAbs w) s) (eaAbsolute w) s.y s.flags ∧
  Claims.Stores s (exec (.styZpX n) s) (eaZeroPageX n s) s.y s.flags

/-- TAX, TAY, TXA, TYA, TSX copy a register and set N and Z from it. Rules R236, R237, R238, R239, R240. -/
def Obligations.TransfersSetNZ : Prop :=
  ∀ s : State,
  exec .tax s = .next (Claims.loadX s s.a) ∧ exec .tay s = .next (Claims.loadY s s.a) ∧
  exec .txa s = .next (Claims.loadA s s.x) ∧ exec .tya s = .next (Claims.loadA s s.y) ∧
  exec .tsx s = .next (Claims.loadX s s.sp)

/-- TXS copies X to SP and changes nothing else, flags included. Derived from 42_load_store_transfer.md section 3; 90_conflicts.md
C3. Completion, result and frame of txs: SP becomes X; N, Z and everything else are unchanged (the spec's resolution C3). -/
def Obligations.TxsWritesNoFlag : Prop :=
  ∀ s : State, exec .txs s = .next { s with sp := s.x }

/-- INC and DEC in their four forms each: one byte of memory moves by one mod 256; N and Z follow it; C and V stay. Rules R260,
R263. -/
def Obligations.IncDecMemory : Prop :=
  ∀ (n : Byte) (w : Word) (s : State),
  Claims.Modifies s (exec (.incZp n) s) (eaZeroPage n) (Claims.incOf) (Claims.incFlags s.flags) ∧
  Claims.Modifies s (exec (.incAbs w) s) (eaAbsolute w) (Claims.incOf) (Claims.incFlags s.flags) ∧
  Claims.Modifies s (exec (.incZpX n) s) (eaZeroPageX n s) (Claims.incOf) (Claims.incFlags s.flags) ∧
  Claims.Modifies s (exec (.incAbsX w) s) (eaAbsoluteX w s) (Claims.incOf) (Claims.incFlags s.flags) ∧
  Claims.Modifies s (exec (.decZp n) s) (eaZeroPage n) (Claims.decOf) (Claims.decFlags s.flags) ∧
  Claims.Modifies s (exec (.decAbs w) s) (eaAbsolute w) (Claims.decOf) (Claims.decFlags s.flags) ∧
  Claims.Modifies s (exec (.decZpX n) s) (eaZeroPageX n s) (Claims.decOf) (Claims.decFlags s.flags) ∧
  Claims.Modifies s (exec (.decAbsX w) s) (eaAbsoluteX w s) (Claims.decOf) (Claims.decFlags s.flags)

/-- INX, INY, DEX, DEY move a register by one mod 256 and set N and Z from the result. Rules R261, R262, R264, R265. -/
def Obligations.IncDecIndexRegisters : Prop :=
  ∀ s : State,
  exec .inx s = .next (Claims.loadX s (Claims.incOf s.x)) ∧ exec .iny s = .next (Claims.loadY s (Claims.incOf s.y)) ∧
  exec .dex s = .next (Claims.loadX s (Claims.decOf s.x)) ∧ exec .dey s = .next (Claims.loadY s (Claims.decOf s.y))

/-- ORA, AND and EOR in their eight forms each: A becomes the bitwise result, N and Z follow it. Rules R280, R281, R282. -/
def Obligations.OraAndEorCombineWithAccumulator : Prop :=
  ∀ (n : Byte) (w : Word) (s : State),
  exec (.oraIndX n) s = .next (Claims.logic s or (s.mem.read (eaIndexedIndirect n s))) ∧
  exec (.oraZp n) s = .next (Claims.logic s or (s.mem.read (eaZeroPage n))) ∧
  exec (.oraImm n) s = .next (Claims.logic s or n) ∧
  exec (.oraAbs w) s = .next (Claims.logic s or (s.mem.read (eaAbsolute w))) ∧
  exec (.oraIndY n) s = .next (Claims.logic s or (s.mem.read (eaIndirectIndexed n s))) ∧
  exec (.oraZpX n) s = .next (Claims.logic s or (s.mem.read (eaZeroPageX n s))) ∧
  exec (.oraAbsY w) s = .next (Claims.logic s or (s.mem.read (eaAbsoluteY w s))) ∧
  exec (.oraAbsX w) s = .next (Claims.logic s or (s.mem.read (eaAbsoluteX w s))) ∧
  exec (.andIndX n) s = .next (Claims.logic s and (s.mem.read (eaIndexedIndirect n s))) ∧
  exec (.andZp n) s = .next (Claims.logic s and (s.mem.read (eaZeroPage n))) ∧
  exec (.andImm n) s = .next (Claims.logic s and n) ∧
  exec (.andAbs w) s = .next (Claims.logic s and (s.mem.read (eaAbsolute w))) ∧
  exec (.andIndY n) s = .next (Claims.logic s and (s.mem.read (eaIndirectIndexed n s))) ∧
  exec (.andZpX n) s = .next (Claims.logic s and (s.mem.read (eaZeroPageX n s))) ∧
  exec (.andAbsY w) s = .next (Claims.logic s and (s.mem.read (eaAbsoluteY w s))) ∧
  exec (.andAbsX w) s = .next (Claims.logic s and (s.mem.read (eaAbsoluteX w s))) ∧
  exec (.eorIndX n) s = .next (Claims.logic s xor (s.mem.read (eaIndexedIndirect n s))) ∧
  exec (.eorZp n) s = .next (Claims.logic s xor (s.mem.read (eaZeroPage n))) ∧
  exec (.eorImm n) s = .next (Claims.logic s xor n) ∧
  exec (.eorAbs w) s = .next (Claims.logic s xor (s.mem.read (eaAbsolute w))) ∧
  exec (.eorIndY n) s = .next (Claims.logic s xor (s.mem.read (eaIndirectIndexed n s))) ∧
  exec (.eorZpX n) s = .next (Claims.logic s xor (s.mem.read (eaZeroPageX n s))) ∧
  exec (.eorAbsY w) s = .next (Claims.logic s xor (s.mem.read (eaAbsoluteY w s))) ∧
  exec (.eorAbsX w) s = .next (Claims.logic s xor (s.mem.read (eaAbsoluteX w s)))

/-- ASL, LSR, ROL, ROR in their five forms each: the shifted value back where it was read, C the bit shifted out, N and Z from it.
Derived from 44_logical_shift.md section 2; 41_alu_flags.md section 4; 93_implementation_defined.md G13. The carry rules are
marked general knowledge by the spec. -/
def Obligations.ShiftsAndRotates : Prop :=
  ∀ (n : Byte) (w : Word) (s : State),
  Claims.Modifies s (exec (.aslZp n) s) (eaZeroPage n) (Claims.leftOf 0) (Claims.leftFlags s.flags 0) ∧
  exec .aslAcc s = .next { s with a := Claims.leftOf 0 s.a, flags := Claims.leftFlags s.flags 0 s.a } ∧
  Claims.Modifies s (exec (.aslAbs w) s) (eaAbsolute w) (Claims.leftOf 0) (Claims.leftFlags s.flags 0) ∧
  Claims.Modifies s (exec (.aslZpX n) s) (eaZeroPageX n s) (Claims.leftOf 0) (Claims.leftFlags s.flags 0) ∧
  Claims.Modifies s (exec (.aslAbsX w) s) (eaAbsoluteX w s) (Claims.leftOf 0) (Claims.leftFlags s.flags 0) ∧
  Claims.Modifies s (exec (.lsrZp n) s) (eaZeroPage n) (Claims.rightOf 0) (Claims.rightFlags s.flags 0) ∧
  exec .lsrAcc s = .next { s with a := Claims.rightOf 0 s.a, flags := Claims.rightFlags s.flags 0 s.a } ∧
  Claims.Modifies s (exec (.lsrAbs w) s) (eaAbsolute w) (Claims.rightOf 0) (Claims.rightFlags s.flags 0) ∧
  Claims.Modifies s (exec (.lsrZpX n) s) (eaZeroPageX n s) (Claims.rightOf 0) (Claims.rightFlags s.flags 0) ∧
  Claims.Modifies s (exec (.lsrAbsX w) s) (eaAbsoluteX w s) (Claims.rightOf 0) (Claims.rightFlags s.flags 0) ∧
  Claims.Modifies s (exec (.rolZp n) s) (eaZeroPage n) (Claims.leftOf s.flags.c.toNat) (Claims.leftFlags s.flags s.flags.c.toNat) ∧
  exec .rolAcc s = .next { s with a := Claims.leftOf s.flags.c.toNat s.a, flags := Claims.leftFlags s.flags s.flags.c.toNat s.a } ∧
  Claims.Modifies s (exec (.rolAbs w) s) (eaAbsolute w) (Claims.leftOf s.flags.c.toNat) (Claims.leftFlags s.flags s.flags.c.toNat) ∧
  Claims.Modifies s (exec (.rolZpX n) s) (eaZeroPageX n s) (Claims.leftOf s.flags.c.toNat) (Claims.leftFlags s.flags s.flags.c.toNat) ∧
  Claims.Modifies s (exec (.rolAbsX w) s) (eaAbsoluteX w s) (Claims.leftOf s.flags.c.toNat) (Claims.leftFlags s.flags s.flags.c.toNat) ∧
  Claims.Modifies s (exec (.rorZp n) s) (eaZeroPage n) (Claims.rightOf s.flags.c.toNat) (Claims.rightFlags s.flags s.flags.c.toNat) ∧
  exec .rorAcc s = .next { s with a := Claims.rightOf s.flags.c.toNat s.a, flags := Claims.rightFlags s.flags s.flags.c.toNat s.a } ∧
  Claims.Modifies s (exec (.rorAbs w) s) (eaAbsolute w) (Claims.rightOf s.flags.c.toNat) (Claims.rightFlags s.flags s.flags.c.toNat) ∧
  Claims.Modifies s (exec (.rorZpX n) s) (eaZeroPageX n s) (Claims.rightOf s.flags.c.toNat) (Claims.rightFlags s.flags s.flags.c.toNat) ∧
  Claims.Modifies s (exec (.rorAbsX w) s) (eaAbsoluteX w s) (Claims.rightOf s.flags.c.toNat) (Claims.rightFlags s.flags s.flags.c.toNat)

/-- ADC in its eight forms: the 9-bit sum of A, operand and C; V is signed overflow; N and Z from the result; D ignored. Rule
R300. -/
def Obligations.AdcAddsWithCarry : Prop :=
  ∀ (n : Byte) (w : Word) (s : State),
  exec (.adcIndX n) s = .next (Claims.adcResult s (s.mem.read (eaIndexedIndirect n s))) ∧
  exec (.adcZp n) s = .next (Claims.adcResult s (s.mem.read (eaZeroPage n))) ∧
  exec (.adcImm n) s = .next (Claims.adcResult s n) ∧
  exec (.adcAbs w) s = .next (Claims.adcResult s (s.mem.read (eaAbsolute w))) ∧
  exec (.adcIndY n) s = .next (Claims.adcResult s (s.mem.read (eaIndirectIndexed n s))) ∧
  exec (.adcZpX n) s = .next (Claims.adcResult s (s.mem.read (eaZeroPageX n s))) ∧
  exec (.adcAbsY w) s = .next (Claims.adcResult s (s.mem.read (eaAbsoluteY w s))) ∧
  exec (.adcAbsX w) s = .next (Claims.adcResult s (s.mem.read (eaAbsoluteX w s)))

/-- SBC in its eight forms: A - M - (1 - C); C = no borrow; V is signed overflow; N and Z from the result. Derived from
45_arithmetic_compare.md section 1; 41_alu_flags.md section 3; 93_implementation_defined.md G26. The overflow formula is marked
general knowledge by the spec, its signed reading derived. -/
def Obligations.SbcSubtractsWithBorrow : Prop :=
  ∀ (n : Byte) (w : Word) (s : State),
  exec (.sbcIndX n) s = .next (Claims.sbcResult s (s.mem.read (eaIndexedIndirect n s))) ∧
  exec (.sbcZp n) s = .next (Claims.sbcResult s (s.mem.read (eaZeroPage n))) ∧
  exec (.sbcImm n) s = .next (Claims.sbcResult s n) ∧
  exec (.sbcAbs w) s = .next (Claims.sbcResult s (s.mem.read (eaAbsolute w))) ∧
  exec (.sbcIndY n) s = .next (Claims.sbcResult s (s.mem.read (eaIndirectIndexed n s))) ∧
  exec (.sbcZpX n) s = .next (Claims.sbcResult s (s.mem.read (eaZeroPageX n s))) ∧
  exec (.sbcAbsY w) s = .next (Claims.sbcResult s (s.mem.read (eaAbsoluteY w s))) ∧
  exec (.sbcAbsX w) s = .next (Claims.sbcResult s (s.mem.read (eaAbsoluteX w s)))

/-- CMP, CPX and CPY: C unsigned not-less, Z equal, N the high bit of the difference; V, registers and memory kept. Derived from
45_arithmetic_compare.md section 2; 41_alu_flags.md section 3; 93_implementation_defined.md G14. Completion, result and frame of
cmpIndX, cmpZp, cmpImm, cmpAbs, cmpIndY, cmpZpX, cmpAbsY, cmpAbsX, cpxImm, cpxZp, cpxAbs, cpyImm, cpyZp, cpyAbs: only C, Z and N
change; the incoming C does not enter (marked general knowledge by the spec). -/
def Obligations.CompareSetsCarryZeroNegative : Prop :=
  ∀ (n : Byte) (w : Word) (s : State),
  exec (.cmpIndX n) s = .next (Claims.compareWith s s.a (s.mem.read (eaIndexedIndirect n s))) ∧
  exec (.cmpZp n) s = .next (Claims.compareWith s s.a (s.mem.read (eaZeroPage n))) ∧
  exec (.cmpImm n) s = .next (Claims.compareWith s s.a n) ∧
  exec (.cmpAbs w) s = .next (Claims.compareWith s s.a (s.mem.read (eaAbsolute w))) ∧
  exec (.cmpIndY n) s = .next (Claims.compareWith s s.a (s.mem.read (eaIndirectIndexed n s))) ∧
  exec (.cmpZpX n) s = .next (Claims.compareWith s s.a (s.mem.read (eaZeroPageX n s))) ∧
  exec (.cmpAbsY w) s = .next (Claims.compareWith s s.a (s.mem.read (eaAbsoluteY w s))) ∧
  exec (.cmpAbsX w) s = .next (Claims.compareWith s s.a (s.mem.read (eaAbsoluteX w s))) ∧
  exec (.cpxImm n) s = .next (Claims.compareWith s s.x n) ∧
  exec (.cpxZp n) s = .next (Claims.compareWith s s.x (s.mem.read (eaZeroPage n))) ∧
  exec (.cpxAbs w) s = .next (Claims.compareWith s s.x (s.mem.read (eaAbsolute w))) ∧
  exec (.cpyImm n) s = .next (Claims.compareWith s s.y n) ∧
  exec (.cpyZp n) s = .next (Claims.compareWith s s.y (s.mem.read (eaZeroPage n))) ∧
  exec (.cpyAbs w) s = .next (Claims.compareWith s s.y (s.mem.read (eaAbsolute w)))

/-- BIT: V is bit 6 and N bit 7 of the operand, Z whether A and operand share no bit; C and registers kept. Rule R207. -/
def Obligations.BitTestsMemoryAgainstAccumulator : Prop :=
  ∀ (n : Byte) (w : Word) (s : State),
  let tested (m : Byte) : Flags :=
    { s.flags with v := decide (64 ≤ m.toNat % 128), n := decide (128 ≤ m.toNat),
                   z := (List.range 8).all fun k => !(s.a.getLsbD k && m.getLsbD k) }
  exec (.bitZp n) s = .next { s with flags := tested (s.mem.read (eaZeroPage n)) } ∧
  exec (.bitAbs w) s = .next { s with flags := tested (s.mem.read (eaAbsolute w)) }

/-- The eight branches: PC + offset mod 65536 when the tested flag matches, else nothing; no flag, register or byte changes.
Derived from 46_branch.md; 40_addressing_modes.md section 2; 93_implementation_defined.md G16. Flag and polarity are marked
general knowledge by the spec. -/
def Obligations.BranchesTakeTargetWhenFlagMatches : Prop :=
  ∀ (d : Int) (s : State),
  let taken : State := { s with pc := BitVec.ofNat 16 ((s.pc.toNat + d) % 65536).toNat }
  exec (.bpl d) s = .next (if s.flags.n = false then taken else s) ∧
  exec (.bmi d) s = .next (if s.flags.n = true then taken else s) ∧
  exec (.bvc d) s = .next (if s.flags.v = false then taken else s) ∧
  exec (.bvs d) s = .next (if s.flags.v = true then taken else s) ∧
  exec (.bcc d) s = .next (if s.flags.c = false then taken else s) ∧
  exec (.bcs d) s = .next (if s.flags.c = true then taken else s) ∧
  exec (.bne d) s = .next (if s.flags.z = false then taken else s) ∧
  exec (.beq d) s = .next (if s.flags.z = true then taken else s)

/-- PHA writes A at 256 + SP and decrements SP mod 256; nothing else changes. Rule R343. -/
def Obligations.PhaPushesAccumulator : Prop :=
  ∀ s : State, ∃ m',
  exec .pha s = .next { s with mem := m', sp := BitVec.ofNat 8 ((s.sp.toNat + 255) % 256) } ∧
    Claims.OneByte s.mem m' (Claims.stackByte s.sp.toNat) s.a

/-- PLA increments SP mod 256 and loads A from there, setting N and Z. Rule R345. -/
def Obligations.PlaPullsAccumulator : Prop :=
  ∀ s : State,
  exec .pla s = .next (Claims.loadA { s with sp := BitVec.ofNat 8 ((s.sp.toNat + 1) % 256) }
    (s.mem.read (Claims.stackByte (s.sp.toNat + 1))))

/-- PHP pushes the stored flags with bits 5 and 4 set; PLP loads the six flags from the pulled byte and discards bits 5 and 4.
Derived from 47_stack.md section 2; 10_state.md section 2; 92_eei_decisions.md D6. What happens to bit 4 is the spec's decision
D6. -/
def Obligations.PhpPlpMoveTheStatus : Prop :=
  ∀ s : State,
  (∃ m', exec .php s = .next { s with mem := m', sp := BitVec.ofNat 8 ((s.sp.toNat + 255) % 256) } ∧
    Claims.OneByte s.mem m' (Claims.stackByte s.sp.toNat) (BitVec.ofNat 8 (Claims.flagBits s.flags + 48))) ∧
  exec .plp s = .next { s with sp := BitVec.ofNat 8 ((s.sp.toNat + 1) % 256),
                               flags := Claims.flagsOf (s.mem.read (Claims.stackByte (s.sp.toNat + 1))) }

/-- JMP absolute and indirect, the pointer's high byte read in its own page. Rule R360. -/
def Obligations.JmpSetsPc : Prop :=
  ∀ (w : Word) (s : State),
  exec (.jmpAbs w) s = .next { s with pc := w } ∧
  (let target := Claims.pair (s.mem.read w) (s.mem.read (BitVec.ofNat 16 (w.toNat / 256 * 256 + (w.toNat + 1) % 256)))
   exec (.jmpInd w) s = .next { s with pc := target })

/-- JSR pushes PC - 1 high byte first within page 1, and jumps. Rule R361. -/
def Obligations.JsrPushesReturnAddress : Prop :=
  ∀ (w : Word) (s : State), ∃ m',
  exec (.jsr w) s = .next { s with mem := m', sp := BitVec.ofNat 8 ((s.sp.toNat + 254) % 256), pc := w } ∧
    Claims.Pushed s.mem m' s.sp.toNat
      [Claims.highByte (Claims.plus s.pc 65535), Claims.lowByte (Claims.plus s.pc 65535)]

/-- RTS pulls a word, low byte first, and continues at it plus 1. Rule R362. -/
def Obligations.RtsReturnsPastThePushedWord : Prop :=
  ∀ s : State,
  exec .rts s = .next { s with
    sp := BitVec.ofNat 8 ((s.sp.toNat + 2) % 256),
    pc := Claims.plus (Claims.pair (s.mem.read (Claims.stackByte (s.sp.toNat + 1)))
                                   (s.mem.read (Claims.stackByte (s.sp.toNat + 2)))) 1 }

/-- RTI pulls the status byte, then PC, with no + 1. Derived from 48_control_transfer.md; 92_eei_decisions.md D7. The sequence is
the spec's decision D7. -/
def Obligations.RtiRestoresStatusAndPc : Prop :=
  ∀ s : State,
  exec .rti s = .next { s with
    sp := BitVec.ofNat 8 ((s.sp.toNat + 3) % 256),
    flags := Claims.flagsOf (s.mem.read (Claims.stackByte (s.sp.toNat + 1))),
    pc := Claims.pair (s.mem.read (Claims.stackByte (s.sp.toNat + 2))) (s.mem.read (Claims.stackByte (s.sp.toNat + 3))) }

/-- BRK: the interrupt entry with the return address past the padding byte, B = 1 pushed and vector 0xFFFE. Derived from
48_control_transfer.md; 60_exceptions.md section 2; 92_eei_decisions.md D7. The sequence is the spec's decision D7. -/
def Obligations.BrkEntersInterrupt : Prop :=
  ∀ s : State,
  Claims.Enters s (exec .brk s) (Claims.plus s.pc 1) (BitVec.ofNat 8 (Claims.flagBits s.flags + 48)) 0xFFFE#16

/-- CLC, CLI, CLD, CLV, SEC, SEI, SED write exactly the flag they name; NOP changes nothing. Rules R380, R384, R387. -/
def Obligations.FlagInstructionsWriteOneFlag : Prop :=
  ∀ s : State,
  exec .clc s = .next { s with flags := ⟨s.flags.n, s.flags.v, s.flags.d, s.flags.i, s.flags.z, false⟩ } ∧
  exec .sec s = .next { s with flags := ⟨s.flags.n, s.flags.v, s.flags.d, s.flags.i, s.flags.z, true⟩ } ∧
  exec .cli s = .next { s with flags := ⟨s.flags.n, s.flags.v, s.flags.d, false, s.flags.z, s.flags.c⟩ } ∧
  exec .sei s = .next { s with flags := ⟨s.flags.n, s.flags.v, s.flags.d, true, s.flags.z, s.flags.c⟩ } ∧
  exec .cld s = .next { s with flags := ⟨s.flags.n, s.flags.v, false, s.flags.i, s.flags.z, s.flags.c⟩ } ∧
  exec .sed s = .next { s with flags := ⟨s.flags.n, s.flags.v, true, s.flags.i, s.flags.z, s.flags.c⟩ } ∧
  exec .clv s = .next { s with flags := ⟨s.flags.n, false, s.flags.d, s.flags.i, s.flags.z, s.flags.c⟩ } ∧
  exec .nop s = .next s

/-- Every instruction answers a next state from every state; the only faults are the undefined opcode and the halted core; nothing
is refused. Rule R402. -/
def Obligations.EveryInstructionCompletes : Prop :=
  (∀ (i : Instr) (s : State), ∃ t, exec i s = .next t) ∧
  (∀ (s : State) (f : Fault), step s = .fault f →
    (∃ t, f = .halted t ∧ s.halted = true) ∨
    (∃ t, f = .unknownOpcode (s.mem.read s.pc) s.pc t ∧ s.mem.read s.pc ∈ Claims.undefinedOpcodes)) ∧
  (∀ (s : State) (r : Refusal), step s ≠ .refused r)

/-- No instruction writes a flag other than those its rule names. Rule R55. -/
def Obligations.InstructionsWriteOnlyTheirFlags : Prop :=
  ∀ (i : Instr) (s : State) (f : Claims.Flag), f ∉ Claims.flagsWritten i.mnemonic →
  ∃ t, exec i s = .next t ∧ f.of t.flags = f.of s.flags

/-- A, X, Y, SP and PC change only under the instructions the register rules list, and the interrupt controller under none.
Derived from 10_state.md section 1; 40_addressing_modes.md section 3. -/
def Obligations.InstructionsWriteOnlyTheirRegisters : Prop :=
  ∀ (i : Instr) (s : State), ∃ t, exec i s = .next t ∧
  (¬ Claims.writesA i → t.a = s.a) ∧ (¬ Claims.writesX i → t.x = s.x) ∧ (¬ Claims.writesY i → t.y = s.y) ∧
  (¬ Claims.writesSp i → t.sp = s.sp) ∧ (¬ Claims.writesPc i → t.pc = s.pc) ∧
  t.halted = s.halted ∧ t.faultRecord = s.faultRecord ∧ t.nmiPending = s.nmiPending ∧ t.inputs = s.inputs

/-- A form that stores nothing leaves every byte of memory as it was. Derived from 20_memory.md section 3; 40_addressing_modes.md
section 3. -/
def Obligations.NonStoringFormsKeepMemory : Prop :=
  ∀ (i : Instr) (s : State) (a : Word), ¬ Claims.writesMemory i →
  ∃ t, exec i s = .next t ∧ t.mem.read a = s.mem.read a

/-- The decimal flag influences no result: it is only carried along, pushed, or replaced. Derived from 41_alu_flags.md section 5;
10_state.md section 2; 92_eei_decisions.md D5. The spec's decision D5. -/
def Obligations.DecimalModeChangesNoResult : Prop :=
  ∀ (i : Instr) (s : State) (d : Bool), i.mnemonic ∉ [.php, .brk, .plp, .rti, .sed, .cld] →
  exec i (Claims.withD d s) = Claims.mapNext (Claims.withD d) (exec i s)

/-- Push writes at 256 + SP then decrements; pull increments then reads; both wrap mod 256 within page 1. Rules R340, R342. -/
def Obligations.StackPushAndPull : Prop :=
  ∀ (s : State) (v : Byte),
  (∃ m', s.push v = { s with mem := m', sp := BitVec.ofNat 8 ((s.sp.toNat + 255) % 256) } ∧
    Claims.OneByte s.mem m' (Claims.stackByte s.sp.toNat) v) ∧
  s.pulled = s.mem.read (Claims.stackByte (s.sp.toNat + 1)) ∧
  s.afterPull = { s with sp := BitVec.ofNat 8 ((s.sp.toNat + 1) % 256) } ∧
  Claims.stackByte 0 = 0x0100#16 ∧ Claims.stackByte 256 = 0x0100#16 ∧
  ∀ sp : Byte, 0x0100 ≤ (Claims.stackByte sp.toNat).toNat ∧ (Claims.stackByte sp.toNat).toNat ≤ 0x01FF

/-- Pushing a 16-bit value then popping yields it, and SP returns to its pre-push position. Derived from 47_stack.md section 1;
95_test_vectors.md section 1; 92_eei_decisions.md D12. Byte-serial pushing is the spec's decision D12. -/
def Obligations.StackRoundTrip : Prop :=
  ∀ (s : State) (w : Word),
  (s.push16 w).pulled16 = w ∧
  (s.push16 w).afterPull16 = { s with mem := (s.push16 w).mem } ∧
  Claims.Pushed s.mem (s.push16 w).mem s.sp.toNat [Claims.highByte w, Claims.lowByte w]

/-- RTS after JSR resumes at the instruction after the call, with SP, registers and flags as before it. Derived from
48_control_transfer.md. -/
def Obligations.SubroutineReturnsAfterItsCall : Prop :=
  ∀ (w pc' : Word) (s t : State), exec (.jsr w) s = .next t →
  exec .rts { t with pc := pc' } = .next { s with mem := t.mem }

/-- RTI after an interrupt entry restores PC and every flag, I included, and SP. Derived from 60_exceptions.md section 3;
48_control_transfer.md; 92_eei_decisions.md D7. The sequences are the spec's decision D7. -/
def Obligations.InterruptReturnUndoesEntry : Prop :=
  ∀ (s : State) (ret vector pc' : Word),
  (let t := interruptEntry ret s.flags.pushedByInstruction vector s
   exec .rti { t with pc := pc' } = .next { s with mem := t.mem, pc := ret }) ∧
  (let t := interruptEntry ret s.flags.pushedByInterrupt vector s
   exec .rti { t with pc := pc' } = .next { s with mem := t.mem, pc := ret })

/-- The byte view of P, the two pushed bytes, and loading P from a byte. Derived from 10_state.md section 2; 92_eei_decisions.md
D6. The bit-4 values are the spec's decision D6. -/
def Obligations.StatusByteViews : Prop :=
  ∀ (f : Flags) (b : Byte),
  f.view.toNat = Claims.flagBits f + 48 ∧ f.pushedByInstruction.toNat = Claims.flagBits f + 48 ∧
  f.pushedByInterrupt.toNat = Claims.flagBits f + 32 ∧ Flags.ofByte b = Claims.flagsOf b ∧
  Flags.ofByte f.view = f ∧ Flags.ofByte f.pushedByInterrupt = f ∧ (Flags.ofByte b).view = b ||| 0x30#8

/-- set_nz: N is the high bit of the value, Z whether it is zero, no other flag is written. Rule R200. -/
def Obligations.SetNzIsHighBitAndZero : Prop :=
  ∀ (f : Flags) (v : Byte),
  ((f.setNZ v).n = true ↔ 128 ≤ v.toNat) ∧ ((f.setNZ v).z = true ↔ v.toNat = 0) ∧
  (f.setNZ v).v = f.v ∧ (f.setNZ v).d = f.d ∧ (f.setNZ v).i = f.i ∧ (f.setNZ v).c = f.c

/-- Sub(a, m, c) equals Add(a, not m, c) in result, carry and overflow. Derived from 41_alu_flags.md section 3. Marked derived by
the spec itself. -/
def Obligations.SubtractionIsAdditionOfTheComplement : Prop :=
  ∀ (a m : Byte) (c : Bool), sub a m c = add a (~~~m) c

/-- Memory changes by exactly the bus writes of the step, in their order. Derived from 20_memory.md section 3; 20_memory.md
section 5; 92_eei_decisions.md D15. The order of accesses is the spec's decision D15; the history is a function beside the state
(log 16), and the entry of an NMI that arrives at this very boundary is log 4. -/
def Obligations.StepMemoryIsItsBusWrites : Prop :=
  ∀ s : State, s.nextInputs.powerOn = false → s.nextInputs.reset = false →
  (∀ t, step s = .next t → t.mem = applyWrites (stepAccesses s) s.mem) ∧
  (∀ f, step s = .fault f → ∀ a v, .write a v ∉ stepAccesses s)

/-- What any instruction stores is in memory after it and is what the very next step fetches, as opcode and as operand bytes.
Derived from 20_memory.md section 5; 70_reset_and_hazards.md section 3; 40_addressing_modes.md section 3; 92_eei_decisions.md D6,
D7, D16; 93_implementation_defined.md G13. The spec's decision D16. The effective address is the one the resolver gives (O21); the
bytes stored by BRK and PHP follow the spec's decisions D6 and D7, and those of the shifts are marked general knowledge by the
spec. -/
def Obligations.StoreIsSeenByTheNextFetch : Prop :=
  ∀ (i : Instr) (s t : State), exec i s = .next t →
  let fetched (k : Nat) : Byte := Claims.byteAfter i s (Claims.plus t.pc k)
  (∀ a, t.mem.read a = Claims.byteAfter i s a) ∧
  (Claims.Quiet t → fetched 0 ∈ Claims.undefinedOpcodes → ∃ u, step t = .fault (.unknownOpcode (fetched 0) t.pc u)) ∧
  (Claims.Quiet t → ∀ j rest, decode [fetched 0, fetched 1, fetched 2] = .ok (j, rest) →
    step t = exec j { Claims.afterInputs t with pc := Claims.plus t.pc j.length })

/-- Harness: the charge of a step with its page-cross penalty, branches at their base cost, and load placing byte i at (base + i)
mod 65536. Derived from 70_reset_and_hazards.md section 4; 70_reset_and_hazards.md section 5; 92_eei_decisions.md D21, D23;
93_implementation_defined.md G21. Decisions D21 and D23 of the spec; the default costs are marked general knowledge by the spec,
the cost table as an argument is log 11, that a later byte replaces an earlier one in a load longer than the memory log 18. -/
def Obligations.HarnessPenaltyAndLoad : Prop :=
  (∀ i : Instr, pagePenalty i.opcode = true ↔
    i.mnemonic ∈ [.lda, .ldx, .ldy, .ora, .and, .eor, .adc, .sbc, .cmp] ∧ i.mode ∈ [.absoluteX, .absoluteY, .indirectIndexed]) ∧
  (∀ (cost : Byte → Nat) (s : State) (i : Instr) (rest : List Byte),
    decode [s.mem.read s.pc, s.mem.read (Claims.plus s.pc 1), s.mem.read (Claims.plus s.pc 2)] = .ok (i, rest) →
    stepCharge cost s = cost (s.mem.read s.pc) +
      (if pagePenalty i.opcode = true ∧ (resolve i.operand { s with pc := Claims.plus s.pc i.length }).crossed = true then 1 else 0) ∧
    (i.mode = .relative → stepCharge cost s = cost (s.mem.read s.pc) ∧ defaultCycleCost (s.mem.read s.pc) = 2)) ∧
  (∀ (h : Harness) (base : Word) (bytes : List Byte),
    ∃ m', h.load base bytes = { h with
        core := { h.core with mem := m' },
        segment := { first := base.toNat, stop := base.toNat + bytes.length } } ∧
      (∀ k (hk : k < bytes.length), bytes.length ≤ k + 65536 → m'.read (Claims.plus base k) = bytes[k]) ∧
      (∀ a, (∀ k, k < bytes.length → a ≠ Claims.plus base k) → m'.read a = h.core.mem.read a))
end

