-- ==== Sys2Proof/Laws/Bits.lean ====
section
/-! SUPPORT. What the byte-order and bit-field helpers compute, as numbers. -/

namespace Sys2Proof.Machine

theorem toNat_word (h l : Byte) : (word h l).toNat = h.toNat * 256 + l.toNat := by
  have hh := h.isLt
  have hl := l.isLt
  have e : h.toNat <<< 8 ||| l.toNat = h.toNat <<< 8 + l.toNat := (Nat.shiftLeft_add_eq_or_of_lt hl _).symm
  simp only [word, BitVec.toNat_or, BitVec.toNat_shiftLeft, BitVec.toNat_setWidth]
  rw [Nat.mod_eq_of_lt (by omega : h.toNat < 2 ^ 16), Nat.mod_eq_of_lt (by omega : l.toNat < 2 ^ 16),
    Nat.mod_eq_of_lt (by rw [Nat.shiftLeft_eq]; omega : h.toNat <<< 8 < 2 ^ 16), e, Nat.shiftLeft_eq]

theorem toNat_lo (w : Word) : (lo w).toNat = w.toNat % 256 := by simp [lo]

theorem toNat_hi (w : Word) : (hi w).toNat = w.toNat / 256 := by
  have := w.isLt
  simp only [hi, BitVec.toNat_setWidth, BitVec.toNat_ushiftRight, Nat.shiftRight_eq_div_pow]
  omega

theorem toNat_zext16 (b : Byte) : (zext16 b).toNat = b.toNat := by
  have := b.isLt
  simp only [zext16, BitVec.toNat_setWidth]
  omega

@[simp] theorem word_hi_lo (w : Word) : word (hi w) (lo w) = w := by
  apply BitVec.eq_of_toNat_eq
  rw [toNat_word, toNat_hi, toNat_lo]
  omega

@[simp] theorem hi_word (h l : Byte) : hi (word h l) = h := by
  have := l.isLt
  apply BitVec.eq_of_toNat_eq
  rw [toNat_hi, toNat_word]
  omega

@[simp] theorem lo_word (h l : Byte) : lo (word h l) = l := by
  have := l.isLt
  apply BitVec.eq_of_toNat_eq
  rw [toNat_lo, toNat_word]
  omega

theorem zext16_injective {a b : Byte} (h : zext16 a = zext16 b) : a = b := by
  apply BitVec.eq_of_toNat_eq
  rw [← toNat_zext16 a, ← toNat_zext16 b, h]

/-- Bit 7 of a byte is set exactly when the byte is 128 or more. -/
theorem getLsbD_seven (b : Byte) : b.getLsbD 7 = decide (128 ≤ b.toNat) := by
  have := b.isLt
  rw [show b.getLsbD 7 = b.msb from rfl, BitVec.msb_eq_decide]

/-- The signed branch offset brought to 16 bits is its value mod 65536. -/
theorem toNat_wrap16 (d : Int) : ((wrap16 d).toNat : Int) = d % 65536 := by
  rw [wrap16, BitVec.toNat_ofInt]
  omega

/-- An address is its page and its offset in the page. -/
theorem pageWrap_address (a : Word) :
    ((a &&& 0xFF00#16) ||| ((a + 1#16) &&& 0x00FF#16)) = word (hi a) (lo (a + 1#16)) := by
  ext i hi
  interval_cases i <;>
    simp [word, Machine.hi, lo, BitVec.getElem_shiftLeft]

end Sys2Proof.Machine
end

