-- ==== Sys2Proof/Laws/PerInstr.lean ====
section
/-! SUPPORT. One lemma per instruction: its encoding stands at its row of the opcode table. The case split over `Instr` is made
once, by the host, from these. -/

namespace Sys2Proof.Laws

/-- The row's instruction, filled with the operand bytes of `i`, is `i` (30_encoding R121, R122). -/
def Fills (form : Form) (i : Instr) : Prop :=
  match form with
  | .noOperand j => j = i ∧ i.operand.bytes = []
  | .byteOperand f => ∃ b, f b = i ∧ i.operand.bytes = [b]
  | .wordOperand f => ∃ w, f w = i ∧ i.operand.bytes = [Machine.lo w, Machine.hi w]
  | .offsetOperand f => ∃ d, f d = i ∧ i.operand = .relative d

/-- The opcode of the instruction looks up a row with its mnemonic and mode, and the row builds the instruction back from its
operand bytes (30_encoding R123, R126). -/
def EncodesAtItsRow.Statement (i : Instr) : Prop :=
  ∃ row, lookupOpcode i.opcode = some row ∧ row.mnemonic = i.mnemonic ∧ row.mode = i.mode ∧ Fills row.form i

theorem EncodesAtItsRow.brk : EncodesAtItsRow.Statement .brk := ⟨_, rfl, rfl, rfl, rfl, rfl⟩
theorem EncodesAtItsRow.oraIndX (n : Byte) : EncodesAtItsRow.Statement (.oraIndX n) := ⟨_, rfl, rfl, rfl, n, rfl, rfl⟩
theorem EncodesAtItsRow.oraZp (n : Byte) : EncodesAtItsRow.Statement (.oraZp n) := ⟨_, rfl, rfl, rfl, n, rfl, rfl⟩
theorem EncodesAtItsRow.aslZp (n : Byte) : EncodesAtItsRow.Statement (.aslZp n) := ⟨_, rfl, rfl, rfl, n, rfl, rfl⟩
theorem EncodesAtItsRow.php : EncodesAtItsRow.Statement .php := ⟨_, rfl, rfl, rfl, rfl, rfl⟩
theorem EncodesAtItsRow.oraImm (n : Byte) : EncodesAtItsRow.Statement (.oraImm n) := ⟨_, rfl, rfl, rfl, n, rfl, rfl⟩
theorem EncodesAtItsRow.aslAcc : EncodesAtItsRow.Statement .aslAcc := ⟨_, rfl, rfl, rfl, rfl, rfl⟩
theorem EncodesAtItsRow.oraAbs (w : Word) : EncodesAtItsRow.Statement (.oraAbs w) := ⟨_, rfl, rfl, rfl, w, rfl, rfl⟩
theorem EncodesAtItsRow.aslAbs (w : Word) : EncodesAtItsRow.Statement (.aslAbs w) := ⟨_, rfl, rfl, rfl, w, rfl, rfl⟩
theorem EncodesAtItsRow.bpl (d : Int) : EncodesAtItsRow.Statement (.bpl d) := ⟨_, rfl, rfl, rfl, d, rfl, rfl⟩
theorem EncodesAtItsRow.oraIndY (n : Byte) : EncodesAtItsRow.Statement (.oraIndY n) := ⟨_, rfl, rfl, rfl, n, rfl, rfl⟩
theorem EncodesAtItsRow.oraZpX (n : Byte) : EncodesAtItsRow.Statement (.oraZpX n) := ⟨_, rfl, rfl, rfl, n, rfl, rfl⟩
theorem EncodesAtItsRow.aslZpX (n : Byte) : EncodesAtItsRow.Statement (.aslZpX n) := ⟨_, rfl, rfl, rfl, n, rfl, rfl⟩
theorem EncodesAtItsRow.clc : EncodesAtItsRow.Statement .clc := ⟨_, rfl, rfl, rfl, rfl, rfl⟩
theorem EncodesAtItsRow.oraAbsY (w : Word) : EncodesAtItsRow.Statement (.oraAbsY w) := ⟨_, rfl, rfl, rfl, w, rfl, rfl⟩
theorem EncodesAtItsRow.oraAbsX (w : Word) : EncodesAtItsRow.Statement (.oraAbsX w) := ⟨_, rfl, rfl, rfl, w, rfl, rfl⟩
theorem EncodesAtItsRow.aslAbsX (w : Word) : EncodesAtItsRow.Statement (.aslAbsX w) := ⟨_, rfl, rfl, rfl, w, rfl, rfl⟩
theorem EncodesAtItsRow.jsr (w : Word) : EncodesAtItsRow.Statement (.jsr w) := ⟨_, rfl, rfl, rfl, w, rfl, rfl⟩
theorem EncodesAtItsRow.andIndX (n : Byte) : EncodesAtItsRow.Statement (.andIndX n) := ⟨_, rfl, rfl, rfl, n, rfl, rfl⟩
theorem EncodesAtItsRow.bitZp (n : Byte) : EncodesAtItsRow.Statement (.bitZp n) := ⟨_, rfl, rfl, rfl, n, rfl, rfl⟩
theorem EncodesAtItsRow.andZp (n : Byte) : EncodesAtItsRow.Statement (.andZp n) := ⟨_, rfl, rfl, rfl, n, rfl, rfl⟩
theorem EncodesAtItsRow.rolZp (n : Byte) : EncodesAtItsRow.Statement (.rolZp n) := ⟨_, rfl, rfl, rfl, n, rfl, rfl⟩
theorem EncodesAtItsRow.plp : EncodesAtItsRow.Statement .plp := ⟨_, rfl, rfl, rfl, rfl, rfl⟩
theorem EncodesAtItsRow.andImm (n : Byte) : EncodesAtItsRow.Statement (.andImm n) := ⟨_, rfl, rfl, rfl, n, rfl, rfl⟩
theorem EncodesAtItsRow.rolAcc : EncodesAtItsRow.Statement .rolAcc := ⟨_, rfl, rfl, rfl, rfl, rfl⟩
theorem EncodesAtItsRow.bitAbs (w : Word) : EncodesAtItsRow.Statement (.bitAbs w) := ⟨_, rfl, rfl, rfl, w, rfl, rfl⟩
theorem EncodesAtItsRow.andAbs (w : Word) : EncodesAtItsRow.Statement (.andAbs w) := ⟨_, rfl, rfl, rfl, w, rfl, rfl⟩
theorem EncodesAtItsRow.rolAbs (w : Word) : EncodesAtItsRow.Statement (.rolAbs w) := ⟨_, rfl, rfl, rfl, w, rfl, rfl⟩
theorem EncodesAtItsRow.bmi (d : Int) : EncodesAtItsRow.Statement (.bmi d) := ⟨_, rfl, rfl, rfl, d, rfl, rfl⟩
theorem EncodesAtItsRow.andIndY (n : Byte) : EncodesAtItsRow.Statement (.andIndY n) := ⟨_, rfl, rfl, rfl, n, rfl, rfl⟩
theorem EncodesAtItsRow.andZpX (n : Byte) : EncodesAtItsRow.Statement (.andZpX n) := ⟨_, rfl, rfl, rfl, n, rfl, rfl⟩
theorem EncodesAtItsRow.rolZpX (n : Byte) : EncodesAtItsRow.Statement (.rolZpX n) := ⟨_, rfl, rfl, rfl, n, rfl, rfl⟩
theorem EncodesAtItsRow.sec : EncodesAtItsRow.Statement .sec := ⟨_, rfl, rfl, rfl, rfl, rfl⟩
theorem EncodesAtItsRow.andAbsY (w : Word) : EncodesAtItsRow.Statement (.andAbsY w) := ⟨_, rfl, rfl, rfl, w, rfl, rfl⟩
theorem EncodesAtItsRow.andAbsX (w : Word) : EncodesAtItsRow.Statement (.andAbsX w) := ⟨_, rfl, rfl, rfl, w, rfl, rfl⟩
theorem EncodesAtItsRow.rolAbsX (w : Word) : EncodesAtItsRow.Statement (.rolAbsX w) := ⟨_, rfl, rfl, rfl, w, rfl, rfl⟩
theorem EncodesAtItsRow.rti : EncodesAtItsRow.Statement .rti := ⟨_, rfl, rfl, rfl, rfl, rfl⟩
theorem EncodesAtItsRow.eorIndX (n : Byte) : EncodesAtItsRow.Statement (.eorIndX n) := ⟨_, rfl, rfl, rfl, n, rfl, rfl⟩
theorem EncodesAtItsRow.eorZp (n : Byte) : EncodesAtItsRow.Statement (.eorZp n) := ⟨_, rfl, rfl, rfl, n, rfl, rfl⟩
theorem EncodesAtItsRow.lsrZp (n : Byte) : EncodesAtItsRow.Statement (.lsrZp n) := ⟨_, rfl, rfl, rfl, n, rfl, rfl⟩
theorem EncodesAtItsRow.pha : EncodesAtItsRow.Statement .pha := ⟨_, rfl, rfl, rfl, rfl, rfl⟩
theorem EncodesAtItsRow.eorImm (n : Byte) : EncodesAtItsRow.Statement (.eorImm n) := ⟨_, rfl, rfl, rfl, n, rfl, rfl⟩
theorem EncodesAtItsRow.lsrAcc : EncodesAtItsRow.Statement .lsrAcc := ⟨_, rfl, rfl, rfl, rfl, rfl⟩
theorem EncodesAtItsRow.jmpAbs (w : Word) : EncodesAtItsRow.Statement (.jmpAbs w) := ⟨_, rfl, rfl, rfl, w, rfl, rfl⟩
theorem EncodesAtItsRow.eorAbs (w : Word) : EncodesAtItsRow.Statement (.eorAbs w) := ⟨_, rfl, rfl, rfl, w, rfl, rfl⟩
theorem EncodesAtItsRow.lsrAbs (w : Word) : EncodesAtItsRow.Statement (.lsrAbs w) := ⟨_, rfl, rfl, rfl, w, rfl, rfl⟩
theorem EncodesAtItsRow.bvc (d : Int) : EncodesAtItsRow.Statement (.bvc d) := ⟨_, rfl, rfl, rfl, d, rfl, rfl⟩
theorem EncodesAtItsRow.eorIndY (n : Byte) : EncodesAtItsRow.Statement (.eorIndY n) := ⟨_, rfl, rfl, rfl, n, rfl, rfl⟩
theorem EncodesAtItsRow.eorZpX (n : Byte) : EncodesAtItsRow.Statement (.eorZpX n) := ⟨_, rfl, rfl, rfl, n, rfl, rfl⟩
theorem EncodesAtItsRow.lsrZpX (n : Byte) : EncodesAtItsRow.Statement (.lsrZpX n) := ⟨_, rfl, rfl, rfl, n, rfl, rfl⟩
theorem EncodesAtItsRow.cli : EncodesAtItsRow.Statement .cli := ⟨_, rfl, rfl, rfl, rfl, rfl⟩
theorem EncodesAtItsRow.eorAbsY (w : Word) : EncodesAtItsRow.Statement (.eorAbsY w) := ⟨_, rfl, rfl, rfl, w, rfl, rfl⟩
theorem EncodesAtItsRow.eorAbsX (w : Word) : EncodesAtItsRow.Statement (.eorAbsX w) := ⟨_, rfl, rfl, rfl, w, rfl, rfl⟩
theorem EncodesAtItsRow.lsrAbsX (w : Word) : EncodesAtItsRow.Statement (.lsrAbsX w) := ⟨_, rfl, rfl, rfl, w, rfl, rfl⟩
theorem EncodesAtItsRow.rts : EncodesAtItsRow.Statement .rts := ⟨_, rfl, rfl, rfl, rfl, rfl⟩
theorem EncodesAtItsRow.adcIndX (n : Byte) : EncodesAtItsRow.Statement (.adcIndX n) := ⟨_, rfl, rfl, rfl, n, rfl, rfl⟩
theorem EncodesAtItsRow.adcZp (n : Byte) : EncodesAtItsRow.Statement (.adcZp n) := ⟨_, rfl, rfl, rfl, n, rfl, rfl⟩
theorem EncodesAtItsRow.rorZp (n : Byte) : EncodesAtItsRow.Statement (.rorZp n) := ⟨_, rfl, rfl, rfl, n, rfl, rfl⟩
theorem EncodesAtItsRow.pla : EncodesAtItsRow.Statement .pla := ⟨_, rfl, rfl, rfl, rfl, rfl⟩
theorem EncodesAtItsRow.adcImm (n : Byte) : EncodesAtItsRow.Statement (.adcImm n) := ⟨_, rfl, rfl, rfl, n, rfl, rfl⟩
theorem EncodesAtItsRow.rorAcc : EncodesAtItsRow.Statement .rorAcc := ⟨_, rfl, rfl, rfl, rfl, rfl⟩
theorem EncodesAtItsRow.jmpInd (w : Word) : EncodesAtItsRow.Statement (.jmpInd w) := ⟨_, rfl, rfl, rfl, w, rfl, rfl⟩
theorem EncodesAtItsRow.adcAbs (w : Word) : EncodesAtItsRow.Statement (.adcAbs w) := ⟨_, rfl, rfl, rfl, w, rfl, rfl⟩
theorem EncodesAtItsRow.rorAbs (w : Word) : EncodesAtItsRow.Statement (.rorAbs w) := ⟨_, rfl, rfl, rfl, w, rfl, rfl⟩
theorem EncodesAtItsRow.bvs (d : Int) : EncodesAtItsRow.Statement (.bvs d) := ⟨_, rfl, rfl, rfl, d, rfl, rfl⟩
theorem EncodesAtItsRow.adcIndY (n : Byte) : EncodesAtItsRow.Statement (.adcIndY n) := ⟨_, rfl, rfl, rfl, n, rfl, rfl⟩
theorem EncodesAtItsRow.adcZpX (n : Byte) : EncodesAtItsRow.Statement (.adcZpX n) := ⟨_, rfl, rfl, rfl, n, rfl, rfl⟩
theorem EncodesAtItsRow.rorZpX (n : Byte) : EncodesAtItsRow.Statement (.rorZpX n) := ⟨_, rfl, rfl, rfl, n, rfl, rfl⟩
theorem EncodesAtItsRow.sei : EncodesAtItsRow.Statement .sei := ⟨_, rfl, rfl, rfl, rfl, rfl⟩
theorem EncodesAtItsRow.adcAbsY (w : Word) : EncodesAtItsRow.Statement (.adcAbsY w) := ⟨_, rfl, rfl, rfl, w, rfl, rfl⟩
theorem EncodesAtItsRow.adcAbsX (w : Word) : EncodesAtItsRow.Statement (.adcAbsX w) := ⟨_, rfl, rfl, rfl, w, rfl, rfl⟩
theorem EncodesAtItsRow.rorAbsX (w : Word) : EncodesAtItsRow.Statement (.rorAbsX w) := ⟨_, rfl, rfl, rfl, w, rfl, rfl⟩
theorem EncodesAtItsRow.staIndX (n : Byte) : EncodesAtItsRow.Statement (.staIndX n) := ⟨_, rfl, rfl, rfl, n, rfl, rfl⟩
theorem EncodesAtItsRow.styZp (n : Byte) : EncodesAtItsRow.Statement (.styZp n) := ⟨_, rfl, rfl, rfl, n, rfl, rfl⟩
theorem EncodesAtItsRow.staZp (n : Byte) : EncodesAtItsRow.Statement (.staZp n) := ⟨_, rfl, rfl, rfl, n, rfl, rfl⟩
theorem EncodesAtItsRow.stxZp (n : Byte) : EncodesAtItsRow.Statement (.stxZp n) := ⟨_, rfl, rfl, rfl, n, rfl, rfl⟩
theorem EncodesAtItsRow.dey : EncodesAtItsRow.Statement .dey := ⟨_, rfl, rfl, rfl, rfl, rfl⟩
theorem EncodesAtItsRow.txa : EncodesAtItsRow.Statement .txa := ⟨_, rfl, rfl, rfl, rfl, rfl⟩
theorem EncodesAtItsRow.styAbs (w : Word) : EncodesAtItsRow.Statement (.styAbs w) := ⟨_, rfl, rfl, rfl, w, rfl, rfl⟩
theorem EncodesAtItsRow.staAbs (w : Word) : EncodesAtItsRow.Statement (.staAbs w) := ⟨_, rfl, rfl, rfl, w, rfl, rfl⟩
theorem EncodesAtItsRow.stxAbs (w : Word) : EncodesAtItsRow.Statement (.stxAbs w) := ⟨_, rfl, rfl, rfl, w, rfl, rfl⟩
theorem EncodesAtItsRow.bcc (d : Int) : EncodesAtItsRow.Statement (.bcc d) := ⟨_, rfl, rfl, rfl, d, rfl, rfl⟩
theorem EncodesAtItsRow.staIndY (n : Byte) : EncodesAtItsRow.Statement (.staIndY n) := ⟨_, rfl, rfl, rfl, n, rfl, rfl⟩
theorem EncodesAtItsRow.styZpX (n : Byte) : EncodesAtItsRow.Statement (.styZpX n) := ⟨_, rfl, rfl, rfl, n, rfl, rfl⟩
theorem EncodesAtItsRow.staZpX (n : Byte) : EncodesAtItsRow.Statement (.staZpX n) := ⟨_, rfl, rfl, rfl, n, rfl, rfl⟩
theorem EncodesAtItsRow.stxZpY (n : Byte) : EncodesAtItsRow.Statement (.stxZpY n) := ⟨_, rfl, rfl, rfl, n, rfl, rfl⟩
theorem EncodesAtItsRow.tya : EncodesAtItsRow.Statement .tya := ⟨_, rfl, rfl, rfl, rfl, rfl⟩
theorem EncodesAtItsRow.staAbsY (w : Word) : EncodesAtItsRow.Statement (.staAbsY w) := ⟨_, rfl, rfl, rfl, w, rfl, rfl⟩
theorem EncodesAtItsRow.txs : EncodesAtItsRow.Statement .txs := ⟨_, rfl, rfl, rfl, rfl, rfl⟩
theorem EncodesAtItsRow.staAbsX (w : Word) : EncodesAtItsRow.Statement (.staAbsX w) := ⟨_, rfl, rfl, rfl, w, rfl, rfl⟩
theorem EncodesAtItsRow.ldyImm (n : Byte) : EncodesAtItsRow.Statement (.ldyImm n) := ⟨_, rfl, rfl, rfl, n, rfl, rfl⟩
theorem EncodesAtItsRow.ldaIndX (n : Byte) : EncodesAtItsRow.Statement (.ldaIndX n) := ⟨_, rfl, rfl, rfl, n, rfl, rfl⟩
theorem EncodesAtItsRow.ldxImm (n : Byte) : EncodesAtItsRow.Statement (.ldxImm n) := ⟨_, rfl, rfl, rfl, n, rfl, rfl⟩
theorem EncodesAtItsRow.ldyZp (n : Byte) : EncodesAtItsRow.Statement (.ldyZp n) := ⟨_, rfl, rfl, rfl, n, rfl, rfl⟩
theorem EncodesAtItsRow.ldaZp (n : Byte) : EncodesAtItsRow.Statement (.ldaZp n) := ⟨_, rfl, rfl, rfl, n, rfl, rfl⟩
theorem EncodesAtItsRow.ldxZp (n : Byte) : EncodesAtItsRow.Statement (.ldxZp n) := ⟨_, rfl, rfl, rfl, n, rfl, rfl⟩
theorem EncodesAtItsRow.tay : EncodesAtItsRow.Statement .tay := ⟨_, rfl, rfl, rfl, rfl, rfl⟩
theorem EncodesAtItsRow.ldaImm (n : Byte) : EncodesAtItsRow.Statement (.ldaImm n) := ⟨_, rfl, rfl, rfl, n, rfl, rfl⟩
theorem EncodesAtItsRow.tax : EncodesAtItsRow.Statement .tax := ⟨_, rfl, rfl, rfl, rfl, rfl⟩
theorem EncodesAtItsRow.ldyAbs (w : Word) : EncodesAtItsRow.Statement (.ldyAbs w) := ⟨_, rfl, rfl, rfl, w, rfl, rfl⟩
theorem EncodesAtItsRow.ldaAbs (w : Word) : EncodesAtItsRow.Statement (.ldaAbs w) := ⟨_, rfl, rfl, rfl, w, rfl, rfl⟩
theorem EncodesAtItsRow.ldxAbs (w : Word) : EncodesAtItsRow.Statement (.ldxAbs w) := ⟨_, rfl, rfl, rfl, w, rfl, rfl⟩
theorem EncodesAtItsRow.bcs (d : Int) : EncodesAtItsRow.Statement (.bcs d) := ⟨_, rfl, rfl, rfl, d, rfl, rfl⟩
theorem EncodesAtItsRow.ldaIndY (n : Byte) : EncodesAtItsRow.Statement (.ldaIndY n) := ⟨_, rfl, rfl, rfl, n, rfl, rfl⟩
theorem EncodesAtItsRow.ldyZpX (n : Byte) : EncodesAtItsRow.Statement (.ldyZpX n) := ⟨_, rfl, rfl, rfl, n, rfl, rfl⟩
theorem EncodesAtItsRow.ldaZpX (n : Byte) : EncodesAtItsRow.Statement (.ldaZpX n) := ⟨_, rfl, rfl, rfl, n, rfl, rfl⟩
theorem EncodesAtItsRow.ldxZpY (n : Byte) : EncodesAtItsRow.Statement (.ldxZpY n) := ⟨_, rfl, rfl, rfl, n, rfl, rfl⟩
theorem EncodesAtItsRow.clv : EncodesAtItsRow.Statement .clv := ⟨_, rfl, rfl, rfl, rfl, rfl⟩
theorem EncodesAtItsRow.ldaAbsY (w : Word) : EncodesAtItsRow.Statement (.ldaAbsY w) := ⟨_, rfl, rfl, rfl, w, rfl, rfl⟩
theorem EncodesAtItsRow.tsx : EncodesAtItsRow.Statement .tsx := ⟨_, rfl, rfl, rfl, rfl, rfl⟩
theorem EncodesAtItsRow.ldyAbsX (w : Word) : EncodesAtItsRow.Statement (.ldyAbsX w) := ⟨_, rfl, rfl, rfl, w, rfl, rfl⟩
theorem EncodesAtItsRow.ldaAbsX (w : Word) : EncodesAtItsRow.Statement (.ldaAbsX w) := ⟨_, rfl, rfl, rfl, w, rfl, rfl⟩
theorem EncodesAtItsRow.ldxAbsY (w : Word) : EncodesAtItsRow.Statement (.ldxAbsY w) := ⟨_, rfl, rfl, rfl, w, rfl, rfl⟩
theorem EncodesAtItsRow.cpyImm (n : Byte) : EncodesAtItsRow.Statement (.cpyImm n) := ⟨_, rfl, rfl, rfl, n, rfl, rfl⟩
theorem EncodesAtItsRow.cmpIndX (n : Byte) : EncodesAtItsRow.Statement (.cmpIndX n) := ⟨_, rfl, rfl, rfl, n, rfl, rfl⟩
theorem EncodesAtItsRow.cpyZp (n : Byte) : EncodesAtItsRow.Statement (.cpyZp n) := ⟨_, rfl, rfl, rfl, n, rfl, rfl⟩
theorem EncodesAtItsRow.cmpZp (n : Byte) : EncodesAtItsRow.Statement (.cmpZp n) := ⟨_, rfl, rfl, rfl, n, rfl, rfl⟩
theorem EncodesAtItsRow.decZp (n : Byte) : EncodesAtItsRow.Statement (.decZp n) := ⟨_, rfl, rfl, rfl, n, rfl, rfl⟩
theorem EncodesAtItsRow.iny : EncodesAtItsRow.Statement .iny := ⟨_, rfl, rfl, rfl, rfl, rfl⟩
theorem EncodesAtItsRow.cmpImm (n : Byte) : EncodesAtItsRow.Statement (.cmpImm n) := ⟨_, rfl, rfl, rfl, n, rfl, rfl⟩
theorem EncodesAtItsRow.dex : EncodesAtItsRow.Statement .dex := ⟨_, rfl, rfl, rfl, rfl, rfl⟩
theorem EncodesAtItsRow.cpyAbs (w : Word) : EncodesAtItsRow.Statement (.cpyAbs w) := ⟨_, rfl, rfl, rfl, w, rfl, rfl⟩
theorem EncodesAtItsRow.cmpAbs (w : Word) : EncodesAtItsRow.Statement (.cmpAbs w) := ⟨_, rfl, rfl, rfl, w, rfl, rfl⟩
theorem EncodesAtItsRow.decAbs (w : Word) : EncodesAtItsRow.Statement (.decAbs w) := ⟨_, rfl, rfl, rfl, w, rfl, rfl⟩
theorem EncodesAtItsRow.bne (d : Int) : EncodesAtItsRow.Statement (.bne d) := ⟨_, rfl, rfl, rfl, d, rfl, rfl⟩
theorem EncodesAtItsRow.cmpIndY (n : Byte) : EncodesAtItsRow.Statement (.cmpIndY n) := ⟨_, rfl, rfl, rfl, n, rfl, rfl⟩
theorem EncodesAtItsRow.cmpZpX (n : Byte) : EncodesAtItsRow.Statement (.cmpZpX n) := ⟨_, rfl, rfl, rfl, n, rfl, rfl⟩
theorem EncodesAtItsRow.decZpX (n : Byte) : EncodesAtItsRow.Statement (.decZpX n) := ⟨_, rfl, rfl, rfl, n, rfl, rfl⟩
theorem EncodesAtItsRow.cld : EncodesAtItsRow.Statement .cld := ⟨_, rfl, rfl, rfl, rfl, rfl⟩
theorem EncodesAtItsRow.cmpAbsY (w : Word) : EncodesAtItsRow.Statement (.cmpAbsY w) := ⟨_, rfl, rfl, rfl, w, rfl, rfl⟩
theorem EncodesAtItsRow.cmpAbsX (w : Word) : EncodesAtItsRow.Statement (.cmpAbsX w) := ⟨_, rfl, rfl, rfl, w, rfl, rfl⟩
theorem EncodesAtItsRow.decAbsX (w : Word) : EncodesAtItsRow.Statement (.decAbsX w) := ⟨_, rfl, rfl, rfl, w, rfl, rfl⟩
theorem EncodesAtItsRow.cpxImm (n : Byte) : EncodesAtItsRow.Statement (.cpxImm n) := ⟨_, rfl, rfl, rfl, n, rfl, rfl⟩
theorem EncodesAtItsRow.sbcIndX (n : Byte) : EncodesAtItsRow.Statement (.sbcIndX n) := ⟨_, rfl, rfl, rfl, n, rfl, rfl⟩
theorem EncodesAtItsRow.cpxZp (n : Byte) : EncodesAtItsRow.Statement (.cpxZp n) := ⟨_, rfl, rfl, rfl, n, rfl, rfl⟩
theorem EncodesAtItsRow.sbcZp (n : Byte) : EncodesAtItsRow.Statement (.sbcZp n) := ⟨_, rfl, rfl, rfl, n, rfl, rfl⟩
theorem EncodesAtItsRow.incZp (n : Byte) : EncodesAtItsRow.Statement (.incZp n) := ⟨_, rfl, rfl, rfl, n, rfl, rfl⟩
theorem EncodesAtItsRow.inx : EncodesAtItsRow.Statement .inx := ⟨_, rfl, rfl, rfl, rfl, rfl⟩
theorem EncodesAtItsRow.sbcImm (n : Byte) : EncodesAtItsRow.Statement (.sbcImm n) := ⟨_, rfl, rfl, rfl, n, rfl, rfl⟩
theorem EncodesAtItsRow.nop : EncodesAtItsRow.Statement .nop := ⟨_, rfl, rfl, rfl, rfl, rfl⟩
theorem EncodesAtItsRow.cpxAbs (w : Word) : EncodesAtItsRow.Statement (.cpxAbs w) := ⟨_, rfl, rfl, rfl, w, rfl, rfl⟩
theorem EncodesAtItsRow.sbcAbs (w : Word) : EncodesAtItsRow.Statement (.sbcAbs w) := ⟨_, rfl, rfl, rfl, w, rfl, rfl⟩
theorem EncodesAtItsRow.incAbs (w : Word) : EncodesAtItsRow.Statement (.incAbs w) := ⟨_, rfl, rfl, rfl, w, rfl, rfl⟩
theorem EncodesAtItsRow.beq (d : Int) : EncodesAtItsRow.Statement (.beq d) := ⟨_, rfl, rfl, rfl, d, rfl, rfl⟩
theorem EncodesAtItsRow.sbcIndY (n : Byte) : EncodesAtItsRow.Statement (.sbcIndY n) := ⟨_, rfl, rfl, rfl, n, rfl, rfl⟩
theorem EncodesAtItsRow.sbcZpX (n : Byte) : EncodesAtItsRow.Statement (.sbcZpX n) := ⟨_, rfl, rfl, rfl, n, rfl, rfl⟩
theorem EncodesAtItsRow.incZpX (n : Byte) : EncodesAtItsRow.Statement (.incZpX n) := ⟨_, rfl, rfl, rfl, n, rfl, rfl⟩
theorem EncodesAtItsRow.sed : EncodesAtItsRow.Statement .sed := ⟨_, rfl, rfl, rfl, rfl, rfl⟩
theorem EncodesAtItsRow.sbcAbsY (w : Word) : EncodesAtItsRow.Statement (.sbcAbsY w) := ⟨_, rfl, rfl, rfl, w, rfl, rfl⟩
theorem EncodesAtItsRow.sbcAbsX (w : Word) : EncodesAtItsRow.Statement (.sbcAbsX w) := ⟨_, rfl, rfl, rfl, w, rfl, rfl⟩
theorem EncodesAtItsRow.incAbsX (w : Word) : EncodesAtItsRow.Statement (.incAbsX w) := ⟨_, rfl, rfl, rfl, w, rfl, rfl⟩

end Sys2Proof.Laws
end

