-- ==== Sys2Proof/Laws/Decode.lean ====
section
/-! SUPPORT. The decoder and the encoder: what a row makes of operand bytes, in both directions. -/

namespace Sys2Proof

open Sys2Proof.Machine

/-- A branch offset in range survives its byte (30_encoding R122). -/
theorem toInt_ofInt_eight (d : Int) (h : -128 ≤ d) (h' : d ≤ 127) : (BitVec.ofInt 8 d).toInt = d := by
  rw [BitVec.toInt_ofInt]
  exact Int.bmod_eq_of_le (by omega) (by omega)

/-- A row that fills to a well-formed instruction reads it back from its operand bytes. -/
theorem Form.fill_bytes {form : Form} {i : Instr} (h : Laws.Fills form i) (hw : i.wellFormed = true) (op : Byte) (rest : List Byte) :
    form.fill op (i.operand.bytes ++ rest) = .ok (i, rest) := by
  cases form with
  | noOperand j => rw [h.2, ← h.1]; rfl
  | byteOperand f => obtain ⟨b, hf, hb⟩ := h; rw [hb, ← hf]; rfl
  | wordOperand f =>
    obtain ⟨w, hf, hb⟩ := h
    rw [hb]
    simp [Form.fill, hf]
  | offsetOperand f =>
    obtain ⟨d, hf, hd⟩ := h
    simp only [Instr.wellFormed, hd, Operand.wellFormed, Bool.and_eq_true, decide_eq_true_eq] at hw
    simp [Form.fill, hd, Operand.bytes, toInt_ofInt_eight d hw.1 hw.2, hf]

/-- The decoder on an encoding whose opcode has a row that fills to the instruction. -/
theorem decode_encode_of_row {i : Instr} (h : Laws.EncodesAtItsRow.Statement i) (hw : i.wellFormed = true) (rest : List Byte) :
    decode (encode i ++ rest) = .ok (i, rest) := by
  obtain ⟨row, hl, -, -, hf⟩ := h
  simp only [encode, List.cons_append, decode, hl]
  exact Form.fill_bytes hf hw _ _

/-- What a row's form makes of operand bytes stands at the row's opcode and has those operand bytes. -/
def Form.Sound (op : Byte) : Form → Prop
  | .noOperand i => i.opcode = op ∧ i.operand.bytes = [] ∧ i.wellFormed = true
  | .byteOperand f => ∀ b, (f b).opcode = op ∧ (f b).operand.bytes = [b] ∧ (f b).wellFormed = true
  | .wordOperand f => ∀ w, (f w).opcode = op ∧ (f w).operand.bytes = [lo w, Machine.hi w] ∧ (f w).wellFormed = true
  | .offsetOperand f => ∀ d, (f d).opcode = op ∧ (f d).operand = .relative d

theorem Form.Sound.fill {op : Byte} {form : Form} (h : form.Sound op) {bs rest : List Byte} {i : Instr}
    (hf : form.fill op bs = .ok (i, rest)) : i.wellFormed = true ∧ i.opcode = op ∧ i.operand.bytes ++ rest = bs := by
  cases form with
  | noOperand j =>
    simp only [Form.fill, Except.ok.injEq, Prod.mk.injEq] at hf
    obtain ⟨rfl, rfl⟩ := hf
    exact ⟨h.2.2, h.1, by rw [h.2.1]; rfl⟩
  | byteOperand f =>
    cases bs with
    | nil => cases hf
    | cons b bs =>
      simp only [Form.fill, Except.ok.injEq, Prod.mk.injEq] at hf
      obtain ⟨rfl, rfl⟩ := hf
      exact ⟨(h b).2.2, (h b).1, by rw [(h b).2.1]; rfl⟩
  | wordOperand f =>
    cases bs with
    | nil => cases hf
    | cons l bs =>
      cases bs with
      | nil => cases hf
      | cons k bs =>
        simp only [Form.fill, Except.ok.injEq, Prod.mk.injEq] at hf
        obtain ⟨rfl, rfl⟩ := hf
        exact ⟨(h _).2.2, (h _).1, by rw [(h _).2.1]; simp⟩
  | offsetOperand f =>
    cases bs with
    | nil => cases hf
    | cons b bs =>
      simp only [Form.fill, Except.ok.injEq, Prod.mk.injEq] at hf
      obtain ⟨rfl, rfl⟩ := hf
      have := b.toInt_lt
      have := b.le_toInt
      refine ⟨?_, (h _).1, by simp [(h _).2, Operand.bytes]⟩
      simp only [Instr.wellFormed, (h _).2, Operand.wellFormed, Bool.and_eq_true, decide_eq_true_eq]
      omega

/-- Every row of the opcode table is sound. -/
theorem opcodeTable_sound : ∀ row ∈ opcodeTable, row.form.Sound row.opcode := by
  simp only [opcodeTable, opcodeRows0, opcodeRows1, opcodeRows2, opcodeRows3, opcodeRows4, opcodeRows5, opcodeRows6,
    opcodeRows7, List.forall_mem_append, List.forall_mem_cons, List.not_mem_nil, false_implies, implies_true, and_true,
    Form.Sound]
  repeat' apply And.intro
  all_goals first | rfl | exact fun _ => ⟨rfl, rfl, rfl⟩ | exact fun _ => ⟨rfl, rfl⟩

theorem lookupOpcode_mem {op : Byte} {row : Row} (h : lookupOpcode op = some row) : row ∈ opcodeTable ∧ row.opcode = op :=
  ⟨List.mem_of_find?_eq_some h, by simpa using List.find?_some h⟩

/-- On three bytes the decoder refuses exactly an opcode without a row (30_encoding R123, R128). -/
theorem decode_three (op b c : Byte) (rest : List Byte) :
    (lookupOpcode op = none → decode (op :: b :: c :: rest) = .error (.unknownOpcode op)) ∧
    (lookupOpcode op ≠ none → ∃ i left, decode (op :: b :: c :: rest) = .ok (i, left)) := by
  constructor
  · intro h
    simp [decode, h]
  · intro h
    obtain ⟨row, hr⟩ := Option.ne_none_iff_exists'.mp h
    simp only [decode, hr]
    cases row.form <;> simp [Form.fill]

theorem decode_of_lookup_none {op : Byte} (h : lookupOpcode op = none) (rest : List Byte) :
    decode (op :: rest) = .error (.unknownOpcode op) := by
  simp [decode, h]

end Sys2Proof
end

