-- ==== Sys2Proof/Laws/State.lean ====
section
/-! SUPPORT. One lemma per field per update of the state, so that no later proof unfolds a record update. -/

namespace Sys2Proof.Machine

namespace State

variable (s : State)

/-! #### `setA` -/

@[simp] theorem setA_a (v : Byte) : (s.setA v).a = v := rfl
@[simp] theorem setA_x (v : Byte) : (s.setA v).x = s.x := rfl
@[simp] theorem setA_y (v : Byte) : (s.setA v).y = s.y := rfl
@[simp] theorem setA_sp (v : Byte) : (s.setA v).sp = s.sp := rfl
@[simp] theorem setA_pc (v : Byte) : (s.setA v).pc = s.pc := rfl
@[simp] theorem setA_flags (v : Byte) : (s.setA v).flags = s.flags := rfl
@[simp] theorem setA_mem (v : Byte) : (s.setA v).mem = s.mem := rfl
@[simp] theorem setA_halted (v : Byte) : (s.setA v).halted = s.halted := rfl
@[simp] theorem setA_faultRecord (v : Byte) : (s.setA v).faultRecord = s.faultRecord := rfl
@[simp] theorem setA_nmiPending (v : Byte) : (s.setA v).nmiPending = s.nmiPending := rfl
@[simp] theorem setA_inputs (v : Byte) : (s.setA v).inputs = s.inputs := rfl

/-! #### `setX` -/

@[simp] theorem setX_a (v : Byte) : (s.setX v).a = s.a := rfl
@[simp] theorem setX_x (v : Byte) : (s.setX v).x = v := rfl
@[simp] theorem setX_y (v : Byte) : (s.setX v).y = s.y := rfl
@[simp] theorem setX_sp (v : Byte) : (s.setX v).sp = s.sp := rfl
@[simp] theorem setX_pc (v : Byte) : (s.setX v).pc = s.pc := rfl
@[simp] theorem setX_flags (v : Byte) : (s.setX v).flags = s.flags := rfl
@[simp] theorem setX_mem (v : Byte) : (s.setX v).mem = s.mem := rfl
@[simp] theorem setX_halted (v : Byte) : (s.setX v).halted = s.halted := rfl
@[simp] theorem setX_faultRecord (v : Byte) : (s.setX v).faultRecord = s.faultRecord := rfl
@[simp] theorem setX_nmiPending (v : Byte) : (s.setX v).nmiPending = s.nmiPending := rfl
@[simp] theorem setX_inputs (v : Byte) : (s.setX v).inputs = s.inputs := rfl

/-! #### `setY` -/

@[simp] theorem setY_a (v : Byte) : (s.setY v).a = s.a := rfl
@[simp] theorem setY_x (v : Byte) : (s.setY v).x = s.x := rfl
@[simp] theorem setY_y (v : Byte) : (s.setY v).y = v := rfl
@[simp] theorem setY_sp (v : Byte) : (s.setY v).sp = s.sp := rfl
@[simp] theorem setY_pc (v : Byte) : (s.setY v).pc = s.pc := rfl
@[simp] theorem setY_flags (v : Byte) : (s.setY v).flags = s.flags := rfl
@[simp] theorem setY_mem (v : Byte) : (s.setY v).mem = s.mem := rfl
@[simp] theorem setY_halted (v : Byte) : (s.setY v).halted = s.halted := rfl
@[simp] theorem setY_faultRecord (v : Byte) : (s.setY v).faultRecord = s.faultRecord := rfl
@[simp] theorem setY_nmiPending (v : Byte) : (s.setY v).nmiPending = s.nmiPending := rfl
@[simp] theorem setY_inputs (v : Byte) : (s.setY v).inputs = s.inputs := rfl

/-! #### `setSp` -/

@[simp] theorem setSp_a (v : Byte) : (s.setSp v).a = s.a := rfl
@[simp] theorem setSp_x (v : Byte) : (s.setSp v).x = s.x := rfl
@[simp] theorem setSp_y (v : Byte) : (s.setSp v).y = s.y := rfl
@[simp] theorem setSp_sp (v : Byte) : (s.setSp v).sp = v := rfl
@[simp] theorem setSp_pc (v : Byte) : (s.setSp v).pc = s.pc := rfl
@[simp] theorem setSp_flags (v : Byte) : (s.setSp v).flags = s.flags := rfl
@[simp] theorem setSp_mem (v : Byte) : (s.setSp v).mem = s.mem := rfl
@[simp] theorem setSp_halted (v : Byte) : (s.setSp v).halted = s.halted := rfl
@[simp] theorem setSp_faultRecord (v : Byte) : (s.setSp v).faultRecord = s.faultRecord := rfl
@[simp] theorem setSp_nmiPending (v : Byte) : (s.setSp v).nmiPending = s.nmiPending := rfl
@[simp] theorem setSp_inputs (v : Byte) : (s.setSp v).inputs = s.inputs := rfl

/-! #### `setPc` -/

@[simp] theorem setPc_a (v : Word) : (s.setPc v).a = s.a := rfl
@[simp] theorem setPc_x (v : Word) : (s.setPc v).x = s.x := rfl
@[simp] theorem setPc_y (v : Word) : (s.setPc v).y = s.y := rfl
@[simp] theorem setPc_sp (v : Word) : (s.setPc v).sp = s.sp := rfl
@[simp] theorem setPc_pc (v : Word) : (s.setPc v).pc = v := rfl
@[simp] theorem setPc_flags (v : Word) : (s.setPc v).flags = s.flags := rfl
@[simp] theorem setPc_mem (v : Word) : (s.setPc v).mem = s.mem := rfl
@[simp] theorem setPc_halted (v : Word) : (s.setPc v).halted = s.halted := rfl
@[simp] theorem setPc_faultRecord (v : Word) : (s.setPc v).faultRecord = s.faultRecord := rfl
@[simp] theorem setPc_nmiPending (v : Word) : (s.setPc v).nmiPending = s.nmiPending := rfl
@[simp] theorem setPc_inputs (v : Word) : (s.setPc v).inputs = s.inputs := rfl

/-! #### `setFlags` -/

@[simp] theorem setFlags_a (v : Flags) : (s.setFlags v).a = s.a := rfl
@[simp] theorem setFlags_x (v : Flags) : (s.setFlags v).x = s.x := rfl
@[simp] theorem setFlags_y (v : Flags) : (s.setFlags v).y = s.y := rfl
@[simp] theorem setFlags_sp (v : Flags) : (s.setFlags v).sp = s.sp := rfl
@[simp] theorem setFlags_pc (v : Flags) : (s.setFlags v).pc = s.pc := rfl
@[simp] theorem setFlags_flags (v : Flags) : (s.setFlags v).flags = v := rfl
@[simp] theorem setFlags_mem (v : Flags) : (s.setFlags v).mem = s.mem := rfl
@[simp] theorem setFlags_halted (v : Flags) : (s.setFlags v).halted = s.halted := rfl
@[simp] theorem setFlags_faultRecord (v : Flags) : (s.setFlags v).faultRecord = s.faultRecord := rfl
@[simp] theorem setFlags_nmiPending (v : Flags) : (s.setFlags v).nmiPending = s.nmiPending := rfl
@[simp] theorem setFlags_inputs (v : Flags) : (s.setFlags v).inputs = s.inputs := rfl

/-! #### `setMem` -/

@[simp] theorem setMem_a (v : Memory) : (s.setMem v).a = s.a := rfl
@[simp] theorem setMem_x (v : Memory) : (s.setMem v).x = s.x := rfl
@[simp] theorem setMem_y (v : Memory) : (s.setMem v).y = s.y := rfl
@[simp] theorem setMem_sp (v : Memory) : (s.setMem v).sp = s.sp := rfl
@[simp] theorem setMem_pc (v : Memory) : (s.setMem v).pc = s.pc := rfl
@[simp] theorem setMem_flags (v : Memory) : (s.setMem v).flags = s.flags := rfl
@[simp] theorem setMem_mem (v : Memory) : (s.setMem v).mem = v := rfl
@[simp] theorem setMem_halted (v : Memory) : (s.setMem v).halted = s.halted := rfl
@[simp] theorem setMem_faultRecord (v : Memory) : (s.setMem v).faultRecord = s.faultRecord := rfl
@[simp] theorem setMem_nmiPending (v : Memory) : (s.setMem v).nmiPending = s.nmiPending := rfl
@[simp] theorem setMem_inputs (v : Memory) : (s.setMem v).inputs = s.inputs := rfl

/-! #### `setNZ` -/

@[simp] theorem setNZ_a (v : Byte) : (s.setNZ v).a = s.a := rfl
@[simp] theorem setNZ_x (v : Byte) : (s.setNZ v).x = s.x := rfl
@[simp] theorem setNZ_y (v : Byte) : (s.setNZ v).y = s.y := rfl
@[simp] theorem setNZ_sp (v : Byte) : (s.setNZ v).sp = s.sp := rfl
@[simp] theorem setNZ_pc (v : Byte) : (s.setNZ v).pc = s.pc := rfl
@[simp] theorem setNZ_flags (v : Byte) : (s.setNZ v).flags = s.flags.setNZ v := rfl
@[simp] theorem setNZ_mem (v : Byte) : (s.setNZ v).mem = s.mem := rfl
@[simp] theorem setNZ_halted (v : Byte) : (s.setNZ v).halted = s.halted := rfl
@[simp] theorem setNZ_faultRecord (v : Byte) : (s.setNZ v).faultRecord = s.faultRecord := rfl
@[simp] theorem setNZ_nmiPending (v : Byte) : (s.setNZ v).nmiPending = s.nmiPending := rfl
@[simp] theorem setNZ_inputs (v : Byte) : (s.setNZ v).inputs = s.inputs := rfl

/-! #### `advancePc` -/

@[simp] theorem advancePc_a (n : Nat) : (s.advancePc n).a = s.a := rfl
@[simp] theorem advancePc_x (n : Nat) : (s.advancePc n).x = s.x := rfl
@[simp] theorem advancePc_y (n : Nat) : (s.advancePc n).y = s.y := rfl
@[simp] theorem advancePc_sp (n : Nat) : (s.advancePc n).sp = s.sp := rfl
@[simp] theorem advancePc_pc (n : Nat) : (s.advancePc n).pc = s.pc + BitVec.ofNat 16 n := rfl
@[simp] theorem advancePc_flags (n : Nat) : (s.advancePc n).flags = s.flags := rfl
@[simp] theorem advancePc_mem (n : Nat) : (s.advancePc n).mem = s.mem := rfl
@[simp] theorem advancePc_halted (n : Nat) : (s.advancePc n).halted = s.halted := rfl
@[simp] theorem advancePc_faultRecord (n : Nat) : (s.advancePc n).faultRecord = s.faultRecord := rfl
@[simp] theorem advancePc_nmiPending (n : Nat) : (s.advancePc n).nmiPending = s.nmiPending := rfl
@[simp] theorem advancePc_inputs (n : Nat) : (s.advancePc n).inputs = s.inputs := rfl

/-! #### `write8` -/

@[simp] theorem write8_a (a : Word) (v : Byte) : (s.write8 a v).a = s.a := rfl
@[simp] theorem write8_x (a : Word) (v : Byte) : (s.write8 a v).x = s.x := rfl
@[simp] theorem write8_y (a : Word) (v : Byte) : (s.write8 a v).y = s.y := rfl
@[simp] theorem write8_sp (a : Word) (v : Byte) : (s.write8 a v).sp = s.sp := rfl
@[simp] theorem write8_pc (a : Word) (v : Byte) : (s.write8 a v).pc = s.pc := rfl
@[simp] theorem write8_flags (a : Word) (v : Byte) : (s.write8 a v).flags = s.flags := rfl
@[simp] theorem write8_mem (a : Word) (v : Byte) : (s.write8 a v).mem = s.mem.write a v := rfl
@[simp] theorem write8_halted (a : Word) (v : Byte) : (s.write8 a v).halted = s.halted := rfl
@[simp] theorem write8_faultRecord (a : Word) (v : Byte) : (s.write8 a v).faultRecord = s.faultRecord := rfl
@[simp] theorem write8_nmiPending (a : Word) (v : Byte) : (s.write8 a v).nmiPending = s.nmiPending := rfl
@[simp] theorem write8_inputs (a : Word) (v : Byte) : (s.write8 a v).inputs = s.inputs := rfl

/-! #### `push`, `afterPull`, `push16`, `afterPull16` -/

@[simp] theorem push_a (v : Byte) : (s.push v).a = s.a := rfl
@[simp] theorem push_x (v : Byte) : (s.push v).x = s.x := rfl
@[simp] theorem push_y (v : Byte) : (s.push v).y = s.y := rfl
@[simp] theorem push_sp (v : Byte) : (s.push v).sp = s.sp - 1#8 := rfl
@[simp] theorem push_pc (v : Byte) : (s.push v).pc = s.pc := rfl
@[simp] theorem push_flags (v : Byte) : (s.push v).flags = s.flags := rfl
@[simp] theorem push_mem (v : Byte) : (s.push v).mem = s.mem.write (stackAddress s.sp) v := rfl
@[simp] theorem push_halted (v : Byte) : (s.push v).halted = s.halted := rfl
@[simp] theorem push_faultRecord (v : Byte) : (s.push v).faultRecord = s.faultRecord := rfl
@[simp] theorem push_nmiPending (v : Byte) : (s.push v).nmiPending = s.nmiPending := rfl
@[simp] theorem push_inputs (v : Byte) : (s.push v).inputs = s.inputs := rfl
@[simp] theorem afterPull_a : s.afterPull.a = s.a := rfl
@[simp] theorem afterPull_x : s.afterPull.x = s.x := rfl
@[simp] theorem afterPull_y : s.afterPull.y = s.y := rfl
@[simp] theorem afterPull_sp : s.afterPull.sp = s.sp + 1#8 := rfl
@[simp] theorem afterPull_pc : s.afterPull.pc = s.pc := rfl
@[simp] theorem afterPull_flags : s.afterPull.flags = s.flags := rfl
@[simp] theorem afterPull_mem : s.afterPull.mem = s.mem := rfl
@[simp] theorem afterPull_halted : s.afterPull.halted = s.halted := rfl
@[simp] theorem afterPull_faultRecord : s.afterPull.faultRecord = s.faultRecord := rfl
@[simp] theorem afterPull_nmiPending : s.afterPull.nmiPending = s.nmiPending := rfl
@[simp] theorem afterPull_inputs : s.afterPull.inputs = s.inputs := rfl
@[simp] theorem push16_a (w : Word) : (s.push16 w).a =
    s.a := rfl
@[simp] theorem push16_x (w : Word) : (s.push16 w).x =
    s.x := rfl
@[simp] theorem push16_y (w : Word) : (s.push16 w).y =
    s.y := rfl
@[simp] theorem push16_sp (w : Word) : (s.push16 w).sp =
    s.sp - 1#8 - 1#8 := rfl
@[simp] theorem push16_pc (w : Word) : (s.push16 w).pc =
    s.pc := rfl
@[simp] theorem push16_flags (w : Word) : (s.push16 w).flags =
    s.flags := rfl
@[simp] theorem push16_mem (w : Word) : (s.push16 w).mem =
    (s.mem.write (stackAddress s.sp) (hi w)).write (stackAddress (s.sp - 1#8)) (lo w) := rfl
@[simp] theorem push16_halted (w : Word) : (s.push16 w).halted =
    s.halted := rfl
@[simp] theorem push16_faultRecord (w : Word) : (s.push16 w).faultRecord =
    s.faultRecord := rfl
@[simp] theorem push16_nmiPending (w : Word) : (s.push16 w).nmiPending =
    s.nmiPending := rfl
@[simp] theorem push16_inputs (w : Word) : (s.push16 w).inputs =
    s.inputs := rfl
@[simp] theorem afterPull16_a : s.afterPull16.a = s.a := rfl
@[simp] theorem afterPull16_x : s.afterPull16.x = s.x := rfl
@[simp] theorem afterPull16_y : s.afterPull16.y = s.y := rfl
@[simp] theorem afterPull16_sp : s.afterPull16.sp = s.sp + 1#8 + 1#8 := rfl
@[simp] theorem afterPull16_pc : s.afterPull16.pc = s.pc := rfl
@[simp] theorem afterPull16_flags : s.afterPull16.flags = s.flags := rfl
@[simp] theorem afterPull16_mem : s.afterPull16.mem = s.mem := rfl
@[simp] theorem afterPull16_halted : s.afterPull16.halted = s.halted := rfl
@[simp] theorem afterPull16_faultRecord : s.afterPull16.faultRecord = s.faultRecord := rfl
@[simp] theorem afterPull16_nmiPending : s.afterPull16.nmiPending = s.nmiPending := rfl
@[simp] theorem afterPull16_inputs : s.afterPull16.inputs = s.inputs := rfl

/-! #### `latch` -/

@[simp] theorem latch_a : s.latch.a = s.a := rfl
@[simp] theorem latch_x : s.latch.x = s.x := rfl
@[simp] theorem latch_y : s.latch.y = s.y := rfl
@[simp] theorem latch_sp : s.latch.sp = s.sp := rfl
@[simp] theorem latch_pc : s.latch.pc = s.pc := rfl
@[simp] theorem latch_flags : s.latch.flags = s.flags := rfl
@[simp] theorem latch_mem : s.latch.mem = s.mem := rfl
@[simp] theorem latch_halted : s.latch.halted = s.halted := rfl
@[simp] theorem latch_faultRecord : s.latch.faultRecord = s.faultRecord := rfl
@[simp] theorem latch_nmiPending : s.latch.nmiPending = (s.nmiPending || s.nextInputs.nmi) := rfl
@[simp] theorem latch_inputs : s.latch.inputs = s.inputs.tail := rfl

/-! #### Reads -/

@[simp] theorem read8_eq (a : Word) : s.read8 a = s.mem.read a := rfl
@[simp] theorem pulled_eq : s.pulled = s.mem.read (stackAddress (s.sp + 1#8)) := rfl
@[simp] theorem pulled16_eq :
    s.pulled16 = word (s.mem.read (stackAddress (s.sp + 1#8 + 1#8))) (s.mem.read (stackAddress (s.sp + 1#8))) := rfl

end State

/-! ### The flags -/

namespace Flags

variable (f : Flags) (v a m : Byte)

@[simp] theorem setNZ_n : (f.setNZ v).n = v.getLsbD 7 := rfl
@[simp] theorem setNZ_z : (f.setNZ v).z = decide (v = 0#8) := rfl
@[simp] theorem setNZ_v : (f.setNZ v).v = f.v := rfl
@[simp] theorem setNZ_d : (f.setNZ v).d = f.d := rfl
@[simp] theorem setNZ_i : (f.setNZ v).i = f.i := rfl
@[simp] theorem setNZ_c : (f.setNZ v).c = f.c := rfl
@[simp] theorem compare_n : (f.compare a m).n = (a - m).getLsbD 7 := rfl
@[simp] theorem compare_z : (f.compare a m).z = decide (a = m) := rfl
@[simp] theorem compare_c : (f.compare a m).c = decide (m.toNat ≤ a.toNat) := rfl
@[simp] theorem compare_v : (f.compare a m).v = f.v := rfl
@[simp] theorem compare_d : (f.compare a m).d = f.d := rfl
@[simp] theorem compare_i : (f.compare a m).i = f.i := rfl
@[simp] theorem bitTest_n : (f.bitTest a m).n = m.getLsbD 7 := rfl
@[simp] theorem bitTest_v : (f.bitTest a m).v = m.getLsbD 6 := rfl
@[simp] theorem bitTest_z : (f.bitTest a m).z = decide (a &&& m = 0#8) := rfl
@[simp] theorem bitTest_c : (f.bitTest a m).c = f.c := rfl
@[simp] theorem bitTest_d : (f.bitTest a m).d = f.d := rfl
@[simp] theorem bitTest_i : (f.bitTest a m).i = f.i := rfl
@[simp] theorem ofByte_n (b : Byte) : (Flags.ofByte b).n = b.getLsbD 7 := rfl
@[simp] theorem ofByte_v (b : Byte) : (Flags.ofByte b).v = b.getLsbD 6 := rfl
@[simp] theorem ofByte_d (b : Byte) : (Flags.ofByte b).d = b.getLsbD 3 := rfl
@[simp] theorem ofByte_i (b : Byte) : (Flags.ofByte b).i = b.getLsbD 2 := rfl
@[simp] theorem ofByte_z (b : Byte) : (Flags.ofByte b).z = b.getLsbD 1 := rfl
@[simp] theorem ofByte_c (b : Byte) : (Flags.ofByte b).c = b.getLsbD 0 := rfl

end Flags

/-! ### The interrupt entry and return, field by field -/

section Entry

variable (ret : Word) (status : Byte) (vector : Word) (s : State)

@[simp] theorem interruptEntry_a : (interruptEntry ret status vector s).a =
    s.a := by
  simp [interruptEntry]
@[simp] theorem interruptEntry_x : (interruptEntry ret status vector s).x =
    s.x := by
  simp [interruptEntry]
@[simp] theorem interruptEntry_y : (interruptEntry ret status vector s).y =
    s.y := by
  simp [interruptEntry]
@[simp] theorem interruptEntry_sp : (interruptEntry ret status vector s).sp =
    s.sp - 1#8 - 1#8 - 1#8 := by
  simp [interruptEntry]
@[simp] theorem interruptEntry_pc : (interruptEntry ret status vector s).pc =
    (interruptEntry ret status vector s).mem.readWord vector := by
  simp [interruptEntry]
@[simp] theorem interruptEntry_flags : (interruptEntry ret status vector s).flags =
    { s.flags with i := true } := by
  simp [interruptEntry]
@[simp] theorem interruptEntry_mem : (interruptEntry ret status vector s).mem =
    (((s.mem.write (stackAddress s.sp) (hi ret)).write (stackAddress (s.sp - 1#8)) (lo ret)).write
      (stackAddress (s.sp - 1#8 - 1#8)) status) := by
  simp [interruptEntry]
@[simp] theorem interruptEntry_halted : (interruptEntry ret status vector s).halted =
    s.halted := by
  simp [interruptEntry]
@[simp] theorem interruptEntry_faultRecord : (interruptEntry ret status vector s).faultRecord =
    s.faultRecord := by
  simp [interruptEntry]
@[simp] theorem interruptEntry_nmiPending : (interruptEntry ret status vector s).nmiPending =
    s.nmiPending := by
  simp [interruptEntry]
@[simp] theorem interruptEntry_inputs : (interruptEntry ret status vector s).inputs =
    s.inputs := by
  simp [interruptEntry]
@[simp] theorem interruptReturn_a : (interruptReturn s).a =
    s.a := by
  simp [interruptReturn]
@[simp] theorem interruptReturn_x : (interruptReturn s).x =
    s.x := by
  simp [interruptReturn]
@[simp] theorem interruptReturn_y : (interruptReturn s).y =
    s.y := by
  simp [interruptReturn]
@[simp] theorem interruptReturn_sp : (interruptReturn s).sp =
    s.sp + 1#8 + 1#8 + 1#8 := by
  simp [interruptReturn]
@[simp] theorem interruptReturn_pc : (interruptReturn s).pc =
    word (s.mem.read (stackAddress (s.sp + 1#8 + 1#8 + 1#8))) (s.mem.read (stackAddress (s.sp + 1#8 + 1#8))) := by
  simp [interruptReturn]
@[simp] theorem interruptReturn_flags : (interruptReturn s).flags =
    Flags.ofByte (s.mem.read (stackAddress (s.sp + 1#8))) := by
  simp [interruptReturn]
@[simp] theorem interruptReturn_mem : (interruptReturn s).mem =
    s.mem := by
  simp [interruptReturn]
@[simp] theorem interruptReturn_halted : (interruptReturn s).halted =
    s.halted := by
  simp [interruptReturn]
@[simp] theorem interruptReturn_faultRecord : (interruptReturn s).faultRecord =
    s.faultRecord := by
  simp [interruptReturn]
@[simp] theorem interruptReturn_nmiPending : (interruptReturn s).nmiPending =
    s.nmiPending := by
  simp [interruptReturn]
@[simp] theorem interruptReturn_inputs : (interruptReturn s).inputs =
    s.inputs := by
  simp [interruptReturn]

end Entry

end Sys2Proof.Machine
end

