-- ==== Sys2Proof/Laws/Flags.lean ====
section
/-! SUPPORT. The status byte views and the ALU as numbers. -/

namespace Sys2Proof.Machine

/-! ### The status byte (10_state R47, R48) -/

theorem Flags.toNat_view (f : Flags) :
    f.view.toNat = 128 * f.n.toNat + 64 * f.v.toNat + 8 * f.d.toNat + 4 * f.i.toNat + 2 * f.z.toNat + f.c.toNat + 48 := by
  obtain ⟨n, v, d, i, z, c⟩ := f
  cases n <;> cases v <;> cases d <;> cases i <;> cases z <;> cases c <;> rfl

@[simp] theorem Flags.pushedByInstruction_eq_view (f : Flags) : f.pushedByInstruction = f.view := by
  obtain ⟨n, v, d, i, z, c⟩ := f
  cases n <;> cases v <;> cases d <;> cases i <;> cases z <;> cases c <;> rfl

theorem Flags.toNat_pushedByInterrupt (f : Flags) :
    f.pushedByInterrupt.toNat =
      128 * f.n.toNat + 64 * f.v.toNat + 8 * f.d.toNat + 4 * f.i.toNat + 2 * f.z.toNat + f.c.toNat + 32 := by
  obtain ⟨n, v, d, i, z, c⟩ := f
  cases n <;> cases v <;> cases d <;> cases i <;> cases z <;> cases c <;> rfl

@[simp] theorem Flags.ofByte_view (f : Flags) : Flags.ofByte f.view = f := by
  obtain ⟨n, v, d, i, z, c⟩ := f
  cases n <;> cases v <;> cases d <;> cases i <;> cases z <;> cases c <;> rfl

@[simp] theorem Flags.ofByte_pushedByInterrupt (f : Flags) : Flags.ofByte f.pushedByInterrupt = f := by
  obtain ⟨n, v, d, i, z, c⟩ := f
  cases n <;> cases v <;> cases d <;> cases i <;> cases z <;> cases c <;> rfl

/-- Loading P and viewing it sets bits 5 and 4 and keeps the others (10_state R47). -/
theorem Flags.view_ofByte (b : Byte) : (Flags.ofByte b).view = b ||| 0x30#8 := by
  have h : ∀ b : Byte, (Flags.ofByte b).view = b ||| 0x30#8 := by decide
  exact h b

/-! ### The adder and the subtractor (41_alu_flags R202 to R205) -/

/-- The high bit of `(x ^ r) & (y ^ r)`: `x` and `y` have one sign and `r` the other. -/
theorem mismatch_eq (x y r : Byte) :
    ((x ^^^ r) &&& (y ^^^ r)).getLsbD 7 =
      ((decide (128 ≤ x.toNat) ^^ decide (128 ≤ r.toNat)) && (decide (128 ≤ y.toNat) ^^ decide (128 ≤ r.toNat))) := by
  rw [BitVec.getLsbD_and, BitVec.getLsbD_xor, BitVec.getLsbD_xor]
  simp only [getLsbD_seven]

/-- The high bit of `(x ^ y) & (x ^ r)`: `x` and `y` have different signs and `r` that of `y`. -/
theorem mismatch_sub_eq (x y r : Byte) :
    ((x ^^^ y) &&& (x ^^^ r)).getLsbD 7 =
      ((decide (128 ≤ x.toNat) ^^ decide (128 ≤ y.toNat)) && (decide (128 ≤ x.toNat) ^^ decide (128 ≤ r.toNat))) := by
  rw [BitVec.getLsbD_and, BitVec.getLsbD_xor, BitVec.getLsbD_xor]
  simp only [getLsbD_seven]

theorem add_value (a m : Byte) (c : Bool) : (add a m c).value.toNat = (a.toNat + m.toNat + c.toNat) % 256 := by
  simp [add]

theorem testBit_eight {s : Nat} (h : s < 512) : s.testBit 8 = decide (256 ≤ s) := by
  rw [Nat.testBit_eq_decide_div_mod_eq, decide_eq_decide]
  omega

/-- Carry out of the 9-bit sum (41_alu_flags R203). -/
theorem add_carry (a m : Byte) (c : Bool) : (add a m c).carry = decide (256 ≤ a.toNat + m.toNat + c.toNat) := by
  have := a.isLt
  have := m.isLt
  have := c.toNat_le
  exact testBit_eight (by omega)

/-- V is signed overflow (41_alu_flags R203). -/
theorem add_overflow (a m : Byte) (c : Bool) :
    (add a m c).overflow =
      decide (a.toInt + m.toInt + c.toNat < -128 ∨ 127 < a.toInt + m.toInt + c.toNat) := by
  have ha := a.isLt
  have hm := m.isLt
  have hc := c.toNat_le
  have hr := add_value a m c
  rw [show (add a m c).overflow = ((m ^^^ (add a m c).value) &&& (a ^^^ (add a m c).value)).getLsbD 7 from rfl, mismatch_eq]
  rw [BitVec.toInt_eq_toNat_cond, BitVec.toInt_eq_toNat_cond]
  rw [Bool.eq_iff_iff]
  simp only [Bool.and_eq_true, Bool.xor_iff_ne, ne_eq, decide_eq_decide, decide_eq_true_eq]
  split <;> split <;> omega

theorem sub_value (a m : Byte) (c : Bool) :
    ((sub a m c).value.toNat : Int) = ((a.toNat : Int) - m.toNat - (1 - c.toNat)) % 256 := by
  simp only [sub, BitVec.toNat_ofInt]
  omega

theorem sub_carry (a m : Byte) (c : Bool) :
    (sub a m c).carry = decide (0 ≤ (a.toNat : Int) - m.toNat - (1 - c.toNat)) := rfl

/-- V is signed overflow of the difference (41_alu_flags R204). -/
theorem sub_overflow (a m : Byte) (c : Bool) :
    (sub a m c).overflow =
      decide (a.toInt - m.toInt - (1 - c.toNat) < -128 ∨ 127 < a.toInt - m.toInt - (1 - c.toNat)) := by
  have ha := a.isLt
  have hm := m.isLt
  have hc := c.toNat_le
  have hr := sub_value a m c
  have hrl := (sub a m c).value.isLt
  rw [show (sub a m c).overflow = ((a ^^^ m) &&& (a ^^^ (sub a m c).value)).getLsbD 7 from rfl, mismatch_sub_eq]
  rw [BitVec.toInt_eq_toNat_cond, BitVec.toInt_eq_toNat_cond]
  rw [Bool.eq_iff_iff]
  simp only [Bool.and_eq_true, Bool.xor_iff_ne, ne_eq, decide_eq_decide, decide_eq_true_eq]
  split <;> split <;> omega

/-! ### Shifts, increments (41_alu_flags R209, R210) -/

theorem flagBit_toNat (b : Bool) : (flagBit b).toNat = b.toNat := by cases b <;> rfl

theorem shiftLeft_value (v : Byte) : (shiftLeft v).value.toNat = v.toNat * 2 % 256 := by
  simp [shiftLeft, Nat.shiftLeft_eq]

theorem shiftRight_value (v : Byte) : (shiftRight v).value.toNat = v.toNat / 2 := by
  simp [shiftRight, Nat.shiftRight_eq_div_pow]

theorem rotateLeft_value (v : Byte) (c : Bool) : (rotateLeft v c).value.toNat = (v.toNat * 2 + c.toNat) % 256 := by
  have h : ∀ (v : Byte) (c : Bool), (rotateLeft v c).value.toNat = (v.toNat * 2 + c.toNat) % 256 := by decide
  exact h v c

theorem rotateRight_value (v : Byte) (c : Bool) : (rotateRight v c).value.toNat = v.toNat / 2 + 128 * c.toNat := by
  have h : ∀ (v : Byte) (c : Bool), (rotateRight v c).value.toNat = v.toNat / 2 + 128 * c.toNat := by decide
  exact h v c

theorem getLsbD_zero_eq (v : Byte) : v.getLsbD 0 = decide (v.toNat % 2 = 1) := by
  simp [BitVec.getLsbD, Nat.testBit_zero]

theorem increment_toNat (v : Byte) : (increment v).toNat = (v.toNat + 1) % 256 := by
  simp [increment]

theorem decrement_toNat (v : Byte) : (decrement v).toNat = (v.toNat + 255) % 256 := by
  simp [decrement, BitVec.toNat_sub]
  omega

/-! ### The flag functions -/

/-- All of `set_nz` (41_alu_flags R200). -/
theorem Flags.setNZ_eq (f : Flags) (v : Byte) :
    f.setNZ v = { f with n := decide (128 ≤ v.toNat), z := decide (v.toNat = 0) } := by
  simp only [setNZ, getLsbD_seven, Flags.mk.injEq, true_and, and_true, decide_eq_decide]
  exact ⟨fun h => by simp [h], fun h => BitVec.eq_of_toNat_eq h⟩

/-- All of `Compare` (41_alu_flags R206). -/
theorem Flags.compare_eq (f : Flags) (r m : Byte) :
    f.compare r m = { f with c := decide (m.toNat ≤ r.toNat), z := decide (r.toNat = m.toNat),
                             n := decide (128 ≤ (r.toNat + 256 - m.toNat) % 256) } := by
  have hm := m.isLt
  simp only [compare, getLsbD_seven, BitVec.toNat_sub, Flags.mk.injEq, true_and, and_true, decide_eq_decide]
  refine ⟨by omega, ⟨fun h => by rw [h], fun h => BitVec.eq_of_toNat_eq h⟩⟩

end Sys2Proof.Machine
end

