-- ==== Sys2Proof/Laws/Memory.lean ====
section
/-! SUPPORT. The laws of the memory: a read after a write, canonical form kept by every operation, and canonical memories are equal
when they read the same. -/

namespace Sys2Proof.Machine.Memory

/-! ### Reading what was written -/

theorem lookup_filter (p : Nat → Bool) (m : Memory) (a : Nat) :
    lookup (m.filter fun c => p c.1) a = if p a then lookup m a else Config.unlistedByte := by
  induction m with
  | nil => simp [lookup]
  | cons c rest ih =>
    obtain ⟨k, v⟩ := c
    by_cases hk : p k
    · by_cases ha : k = a
      · subst ha; simp [lookup, hk]
      · simp [lookup, hk, ha, ih]
    · by_cases ha : k = a
      · subst ha; simp [hk, ih]
      · simp [lookup, hk, ha, ih]

theorem lookup_forget (m : Memory) (a b : Nat) :
    lookup (m.forget a) b = if b = a then Config.unlistedByte else lookup m b := by
  have := lookup_filter (fun k => decide (k ≠ a)) m b
  by_cases h : b = a <;> simp_all [forget]

/-- Reading after `place`, where the address placed is not listed before. -/
theorem lookup_place (a : Nat) (v : Byte) (m : Memory) (b : Nat) :
    lookup (place a v (m.forget a)) b = if b = a then v else lookup m b := by
  have key : ∀ l : Memory, (∀ c ∈ l, c.1 ≠ a) → lookup (place a v l) b = if b = a then v else lookup l b := by
    intro l hl
    induction l with
    | nil =>
      by_cases h : b = a
      · simp [place, lookup, h]
      · simp [place, lookup, h, Ne.symm h]
    | cons c rest ih =>
      obtain ⟨k, w⟩ := c
      have hk : k ≠ a := hl (k, w) (by simp)
      have ih := ih fun c hc => hl c (by simp [hc])
      by_cases hlt : a < k
      · by_cases h : b = a
        · simp [place, lookup, hlt, h]
        · simp [place, lookup, hlt, h, Ne.symm h]
      · by_cases hkb : k = b
        · subst hkb; simp [place, lookup, hlt, hk]
        · simp [place, lookup, hlt, hkb, ih]
  have hf := key (m.forget a) (by simp [forget])
  rw [hf, lookup_forget]
  split <;> rfl

theorem lookup_write (m : Memory) (a : Word) (v : Byte) (b : Nat) :
    lookup (m.write a v) b = if b = a.toNat then v else lookup m b := by
  unfold write
  split
  · next h => rw [lookup_forget]; split <;> simp [h]
  · exact lookup_place ..

/-- Everything a write does to a read (20_memory R82). -/
theorem read_write (m : Memory) (a b : Word) (v : Byte) :
    (m.write a v).read b = if b = a then v else m.read b := by
  simp only [read, lookup_write]
  congr 1
  exact propext ⟨fun h => BitVec.eq_of_toNat_eq h, fun h => congrArg _ h⟩

@[simp] theorem read_write_same (m : Memory) (a : Word) (v : Byte) : (m.write a v).read a = v := by
  simp [read_write]

theorem read_write_other (m : Memory) {a b : Word} (v : Byte) (h : b ≠ a) : (m.write a v).read b = m.read b := by
  simp [read_write, h]

@[simp] theorem read_nil (a : Word) : Memory.read [] a = 0x00#8 := rfl

theorem read_zeroFill (m : Memory) (r : Config.AddressRange) (a : Word) :
    (m.zeroFill r).read a = if r.first.toNat ≤ a.toNat ∧ a.toNat ≤ r.last.toNat then 0x00#8 else m.read a := by
  have := lookup_filter (fun k => !(decide (r.first.toNat ≤ k) && decide (k ≤ r.last.toNat))) m a.toNat
  simp only [read, zeroFill, this]
  by_cases h : r.first.toNat ≤ a.toNat ∧ a.toNat ≤ r.last.toNat
  · simp [h, Config.unlistedByte]
  · have h' : (!(decide (r.first.toNat ≤ a.toNat) && decide (a.toNat ≤ r.last.toNat))) = true := by
      simp only [not_and_or, not_le] at h
      rcases h with h | h <;> simp [h]
    simp [h, h']

theorem read_writeEach (f : Word → Byte) (l : List Word) (m : Memory) (a : Word) :
    (writeEach f l m).read a = if a ∈ l then f a else m.read a := by
  induction l generalizing m with
  | nil => simp [writeEach]
  | cons b rest ih =>
    rw [writeEach, ih, read_write]
    by_cases h : a ∈ rest
    · simp [h]
    · by_cases hb : a = b
      · simp [hb]
      · simp [h, hb]

/-! ### The canonical form -/

theorem wfFrom_mono {l l' : Nat} (h : l' ≤ l) : ∀ {m : Memory}, wfFrom l m = true → wfFrom l' m = true
  | [], _ => rfl
  | (k, v) :: rest, hm => by
    simp only [wfFrom, Bool.and_eq_true, decide_eq_true_eq] at hm ⊢
    exact ⟨⟨⟨by omega, hm.1.1.2⟩, hm.1.2⟩, hm.2⟩

theorem wfFrom_filter (p : Nat → Bool) : ∀ {l : Nat} {m : Memory}, wfFrom l m = true → wfFrom l (m.filter fun c => p c.1) = true
  | _, [], _ => rfl
  | l, (k, v) :: rest, hm => by
    simp only [wfFrom, Bool.and_eq_true, decide_eq_true_eq] at hm
    have ih := wfFrom_filter p hm.2
    by_cases hk : p k
    · simp only [List.filter_cons, hk, if_true, wfFrom, Bool.and_eq_true, decide_eq_true_eq]
      exact ⟨hm.1, ih⟩
    · simpa [List.filter_cons, hk] using wfFrom_mono (by omega) ih

theorem wfFrom_place {a : Nat} {v : Byte} (ha : a < 65536) (hv : v ≠ Config.unlistedByte) :
    ∀ {l : Nat} {m : Memory}, l ≤ a → (∀ c ∈ m, c.1 ≠ a) → wfFrom l m = true → wfFrom l (place a v m) = true
  | l, [], hl, _, _ => by simp [place, wfFrom, hl, ha, hv]
  | l, (k, w) :: rest, hl, hne, hm => by
    have hk : k ≠ a := hne (k, w) (by simp)
    simp only [wfFrom, Bool.and_eq_true, decide_eq_true_eq] at hm
    by_cases hlt : a < k
    · simp only [place, hlt, if_true, wfFrom, Bool.and_eq_true, decide_eq_true_eq]
      exact ⟨⟨⟨hl, ha⟩, hv⟩, ⟨⟨by omega, hm.1.1.2⟩, hm.1.2⟩, hm.2⟩
    · simp only [place, hlt, if_false, wfFrom, Bool.and_eq_true, decide_eq_true_eq]
      exact ⟨hm.1, wfFrom_place ha hv (by omega) (fun c hc => hne c (by simp [hc])) hm.2⟩

theorem wf_forget {m : Memory} (a : Nat) (h : m.wf = true) : (m.forget a).wf = true :=
  wfFrom_filter (fun k => decide (k ≠ a)) h

theorem wf_write {m : Memory} (a : Word) (v : Byte) (h : m.wf = true) : (m.write a v).wf = true := by
  unfold write
  split
  · exact wf_forget _ h
  · next hv => exact wfFrom_place a.isLt hv (Nat.zero_le _) (by simp [forget]) (wf_forget _ h)

theorem wf_zeroFill {m : Memory} (r : Config.AddressRange) (h : m.wf = true) : (m.zeroFill r).wf = true :=
  wfFrom_filter (fun k => !(decide (r.first.toNat ≤ k) && decide (k ≤ r.last.toNat))) h

theorem wf_writeEach (f : Word → Byte) (l : List Word) {m : Memory} (h : m.wf = true) : (writeEach f l m).wf = true := by
  induction l generalizing m with
  | nil => exact h
  | cons a rest ih => exact ih (wf_write a (f a) h)

theorem wf_storeBytes (base : Word) (bytes : List Byte) {m : Memory} (h : m.wf = true) :
    (storeBytes base bytes m).wf = true := by
  induction bytes generalizing base m with
  | nil => exact h
  | cons b rest ih => exact ih (base + 1#16) (wf_write base b h)

theorem wf_nil : Memory.wf [] = true := rfl

/-! ### Equal reads, equal memories -/

theorem lookup_below {m : Memory} {l a : Nat} (h : wfFrom l m = true) (ha : a < l) : lookup m a = Config.unlistedByte := by
  induction m generalizing l with
  | nil => rfl
  | cons c rest ih =>
    obtain ⟨k, v⟩ := c
    simp only [wfFrom, Bool.and_eq_true, decide_eq_true_eq] at h
    rw [lookup, if_neg (by omega), ih h.2 (by omega)]

/-- Canonical memories whose listed addresses lie at or above a bound are equal when they read the same below 65536. -/
theorem eq_of_lookup_eq : ∀ {l l' : Nat} {m m' : Memory}, wfFrom l m = true → wfFrom l' m' = true →
    (∀ a, a < 65536 → lookup m a = lookup m' a) → m = m'
  | _, _, [], [], _, _, _ => rfl
  | _, _, [], (k, v) :: rest, _, h', e => by
    simp only [wfFrom, Bool.and_eq_true, decide_eq_true_eq] at h'
    exact absurd (by simpa [lookup] using (e k h'.1.1.2).symm) h'.1.2
  | _, _, (k, v) :: rest, [], h, _, e => by
    simp only [wfFrom, Bool.and_eq_true, decide_eq_true_eq] at h
    exact absurd (by simpa [lookup] using e k h.1.1.2) h.1.2
  | _, _, (k, v) :: rest, (k', v') :: rest', h, h', e => by
    simp only [wfFrom, Bool.and_eq_true, decide_eq_true_eq] at h h'
    have hk : k = k' := by
      by_contra hne
      rcases Nat.lt_or_gt_of_ne hne with hlt | hgt
      · have := e k h.1.1.2
        rw [lookup, if_pos rfl, lookup, if_neg (Ne.symm hne), lookup_below h'.2 (by omega)] at this
        exact h.1.2 this
      · have := e k' h'.1.1.2
        rw [lookup, if_neg hne, lookup, if_pos rfl, lookup_below h.2 (by omega)] at this
        exact h'.1.2 this.symm
    subst hk
    have hv : v = v' := by simpa [lookup] using e k h.1.1.2
    subst hv
    have : rest = rest' := eq_of_lookup_eq h.2 h'.2 fun a ha => by
      by_cases hka : k = a
      · subst hka
        rw [lookup_below h.2 (by omega), lookup_below h'.2 (by omega)]
      · simpa [lookup, hka] using e a ha
    rw [this]

/-! ### Word reads -/

theorem readWord_eq (m : Memory) (a : Word) : m.readWord a = word (m.read (a + 1#16)) (m.read a) := rfl

theorem readWordZeroPage_eq (m : Memory) (z : Byte) :
    m.readWordZeroPage z = word (m.read (zext16 (z + 1#8))) (m.read (zext16 z)) := rfl

theorem readWordPageWrap_eq (m : Memory) (a : Word) :
    m.readWordPageWrap a = word (m.read (word (hi a) (lo (a + 1#16)))) (m.read a) := by
  rw [readWordPageWrap, pageWrap_address]

/-- Away from the last byte of a page the page-wrapped read is the linear one (20_memory R85). -/
theorem readWordPageWrap_eq_readWord (m : Memory) (a : Word) (h : lo a ≠ 0xFF#8) : m.readWordPageWrap a = m.readWord a := by
  have hl : a.toNat % 256 ≠ 255 := fun e => h (BitVec.eq_of_toNat_eq (by rw [toNat_lo, e]; rfl))
  have : word (hi a) (lo (a + 1#16)) = a + 1#16 := by
    apply BitVec.eq_of_toNat_eq
    rw [toNat_word, toNat_hi, toNat_lo, BitVec.toNat_add]
    have := a.isLt
    simp only [BitVec.toNat_ofNat]
    omega
  rw [readWordPageWrap_eq, this, readWord_eq]

end Sys2Proof.Machine.Memory
end

