-- ==== Sys2Proof/Laws/Stack.lean ====
section
/-! SUPPORT. The stack manager and the interrupt entry: where pushes land, and that pulls undo them. -/

namespace Sys2Proof.Machine

/-- The stack byte of SP lies at 256 + SP, in page 1 (10_state R44). -/
theorem toNat_stackAddress (sp : Byte) : (stackAddress sp).toNat = 256 + sp.toNat := by
  have h := sp.isLt
  have e : (256 : Nat) ||| sp.toNat = 256 + sp.toNat := by
    have := Nat.shiftLeft_add_eq_or_of_lt (show sp.toNat < 2 ^ 8 from h) 1
    simpa [Nat.shiftLeft_eq] using this.symm
  simp only [stackAddress, Config.stackBase, BitVec.toNat_or, toNat_zext16, BitVec.toNat_ofNat]
  exact e

theorem stackAddress_injective {p q : Byte} (h : stackAddress p = stackAddress q) : p = q := by
  apply BitVec.eq_of_toNat_eq
  have := congrArg BitVec.toNat h
  rw [toNat_stackAddress, toNat_stackAddress] at this
  omega

@[simp] theorem stackAddress_eq_iff (p q : Byte) : stackAddress p = stackAddress q ↔ p = q :=
  ⟨stackAddress_injective, fun h => by rw [h]⟩

theorem sub_add_one (p : Byte) : p - 1#8 + 1#8 = p := BitVec.sub_add_cancel p 1#8

theorem sp_ne_sub_one (p : Byte) : p ≠ p - 1#8 := by
  intro h
  have := congrArg BitVec.toNat h
  have := p.isLt
  simp only [BitVec.toNat_sub, BitVec.toNat_ofNat] at *
  omega

theorem sp_ne_sub_two (p : Byte) : p ≠ p - 1#8 - 1#8 := by
  intro h
  have := congrArg BitVec.toNat h
  have := p.isLt
  simp only [BitVec.toNat_sub, BitVec.toNat_ofNat] at *
  omega

/-- A pull after a push returns the byte pushed (47_stack R340). -/
@[simp] theorem pulled_push (s : State) (v : Byte) : (s.push v).pulled = v := by
  simp

/-- A pull after a push restores SP. -/
theorem afterPull_push (s : State) (v : Byte) : (s.push v).afterPull = { s with mem := (s.push v).mem } := by
  simp [State.afterPull, State.push, State.setSp, State.write8, State.setMem]

/-- A 16-bit pull after a 16-bit push returns the word pushed (47_stack R341). -/
theorem pulled16_push16 (s : State) (w : Word) : (s.push16 w).pulled16 = w := by
  simp [Memory.read_write, sp_ne_sub_one]

theorem afterPull16_push16 (s : State) (w : Word) : (s.push16 w).afterPull16 = { s with mem := (s.push16 w).mem } := by
  simp [State.afterPull16, State.afterPull, State.push16, State.push, State.setSp, State.write8, State.setMem]

/-- All an interrupt entry changes: memory, SP, I and PC (60_exceptions R411). -/
theorem interruptEntry_eq (ret : Word) (status : Byte) (vector : Word) (s : State) :
    interruptEntry ret status vector s =
      { s with
        mem := (interruptEntry ret status vector s).mem
        sp := s.sp - 1#8 - 1#8 - 1#8
        flags := { s.flags with i := true }
        pc := (interruptEntry ret status vector s).mem.readWord vector } := by
  simp only [interruptEntry, State.setPc, State.setFlags, State.push16, State.push, State.setSp, State.write8, State.setMem]

/-- The three bytes an interrupt entry pushes read back (60_exceptions R411). -/
theorem interruptEntry_reads (ret : Word) (status : Byte) (vector : Word) (s : State) :
    (interruptEntry ret status vector s).mem.read (stackAddress s.sp) = hi ret ∧
    (interruptEntry ret status vector s).mem.read (stackAddress (s.sp - 1#8)) = lo ret ∧
    (interruptEntry ret status vector s).mem.read (stackAddress (s.sp - 1#8 - 1#8)) = status := by
  have h1 := sp_ne_sub_one s.sp
  have h2 := sp_ne_sub_one (s.sp - 1#8)
  have h3 := sp_ne_sub_two s.sp
  simp [Memory.read_write, h1, h2, h3]

/-- An interrupt entry changes no byte but the three it pushes. -/
theorem interruptEntry_read_other (ret : Word) (status : Byte) (vector : Word) (s : State) (a : Word)
    (h1 : a ≠ stackAddress s.sp) (h2 : a ≠ stackAddress (s.sp - 1#8)) (h3 : a ≠ stackAddress (s.sp - 1#8 - 1#8)) :
    (interruptEntry ret status vector s).mem.read a = s.mem.read a := by
  simp [Memory.read_write, h1, h2, h3]

/-- The return undoes an entry whose status byte carries the flags (48_control_transfer R363). -/
theorem interruptReturn_interruptEntry (ret : Word) (status : Byte) (vector pc' : Word) (s : State)
    (h : Flags.ofByte status = s.flags) :
    interruptReturn { interruptEntry ret status vector s with pc := pc' } =
      { s with mem := (interruptEntry ret status vector s).mem, pc := ret } := by
  have r := interruptEntry_reads ret status vector s
  simp only [interruptReturn, State.afterPull, State.afterPull16, State.pulled, State.pulled16, State.read8, State.setSp,
    State.setFlags, State.setPc, interruptEntry_sp, sub_add_one, r.1, r.2.1, r.2.2, h, word_hi_lo, interruptEntry_a,
    interruptEntry_x, interruptEntry_y, interruptEntry_halted, interruptEntry_faultRecord, interruptEntry_nmiPending,
    interruptEntry_inputs]

end Sys2Proof.Machine
end

