-- ==== Sys2Proof/Laws/Step.lean ====
section
/-! SUPPORT. What one step can do, said once, and which operations keep the canonical form of memory. -/

namespace Sys2Proof.Machine

/-! ### The canonical form is kept -/

@[simp] theorem wf_push {s : State} (v : Byte) (h : s.mem.wf = true) : (s.push v).mem.wf = true := Memory.wf_write _ v h

@[simp] theorem wf_push16 {s : State} (w : Word) (h : s.mem.wf = true) : (s.push16 w).mem.wf = true :=
  wf_push _ (wf_push _ h)

@[simp] theorem wf_interruptEntry {s : State} (ret : Word) (status : Byte) (vector : Word) (h : s.mem.wf = true) :
    (interruptEntry ret status vector s).mem.wf = true :=
  wf_push _ (wf_push16 _ h)

@[simp] theorem wf_place_write {s : State} (p : Place) (v : Byte) (h : s.mem.wf = true) : (p.write v s).mem.wf = true := by
  cases p with
  | acc => exact h
  | addr ea => exact Memory.wf_write ea v h

theorem wf_clearRange {m : Memory} (range : Option Config.AddressRange) (h : m.wf = true) : (clearRange range m).wf = true := by
  cases range with
  | none => exact h
  | some r => exact Memory.wf_zeroFill r h

theorem wf_powerUpWith {s : State} (range : Option Config.AddressRange) (h : s.mem.wf = true) :
    (powerUpWith range s).mem.wf = true :=
  wf_clearRange range h

theorem wf_resetWith {s : State} (registers : List Word) (byteOf : Memory → Word → Byte) (h : s.mem.wf = true) :
    (resetWith registers byteOf s).mem.wf = true :=
  Memory.wf_writeEach _ registers h

/-! ### The boundary poll and the step -/

/-- The step of a boundary at which the poll chooses a given event. -/
theorem step_of_poll {s : State} {e : Event} (h : poll s.nextInputs s.latch = e) : step s = runEvent e s.latch := by
  rw [step, h]

/-- Which event the poll chooses, with all that this says of the inputs and the state (60_exceptions R413). -/
theorem poll_cases (p : Inputs) (s : State) :
    (poll p s = .powerUp ∧ p.powerOn = true) ∨
    (poll p s = .reset ∧ p.powerOn = false ∧ p.reset = true) ∨
    (poll p s = .noStep ∧ p.powerOn = false ∧ p.reset = false ∧ s.halted = true) ∨
    (poll p s = .nmi ∧ p.powerOn = false ∧ p.reset = false ∧ s.halted = false ∧ s.nmiPending = true) ∨
    (poll p s = .irq ∧ p.powerOn = false ∧ p.reset = false ∧ s.halted = false ∧ s.nmiPending = false ∧ p.irq = true ∧
      s.flags.i = false) ∨
    (poll p s = .instruction ∧ p.powerOn = false ∧ p.reset = false ∧ s.halted = false ∧ s.nmiPending = false ∧
      (p.irq = false ∨ s.flags.i = true)) := by
  unfold poll
  cases h1 : p.powerOn
  · cases h2 : p.reset
    · cases h3 : s.halted
      · cases h4 : s.nmiPending
        · cases h5 : p.irq <;> cases h6 : s.flags.i <;> simp
        · simp
      · simp
    · simp
  · simp

/-- All an instruction step can do: the instruction decoded at PC runs with PC past it, or the opcode has no row and faults. -/
theorem instructionStep_cases (s : State) :
    (∃ i rest, decode s.fetchBytes = .ok (i, rest) ∧ instructionStep s = exec i (s.advancePc i.length)) ∨
    (lookupOpcode (s.mem.read s.pc) = none ∧ instructionStep s = .fault (unknownOpcodeFault s)) := by
  have d := decode_three (s.mem.read s.pc) (s.mem.read (s.pc + 1#16)) (s.mem.read (s.pc + 2#16)) []
  by_cases h : lookupOpcode (s.mem.read s.pc) = none
  · refine .inr ⟨h, ?_⟩
    have := d.1 h
    simp only [instructionStep, State.fetchBytes, State.read8]
    rw [this]
  · obtain ⟨i, left, e⟩ := d.2 h
    refine .inl ⟨i, left, e, ?_⟩
    simp only [instructionStep, State.fetchBytes, State.read8]
    rw [e]

/-- All a step can do (00_scope R13). -/
theorem step_cases (s : State) :
    step s = .next (powerUp s.latch) ∨
    step s = .next (resetSequence s.latch) ∨
    (step s = .fault (.halted s.latch) ∧ s.halted = true) ∨
    (step s = .next (takeNmi s.latch) ∧ s.halted = false) ∨
    (step s = .next (takeIrq s.latch) ∧ s.halted = false ∧ s.flags.i = false) ∨
    (step s = instructionStep s.latch ∧ s.halted = false) := by
  rcases poll_cases s.nextInputs s.latch with h | h | h | h | h | h <;> rw [step_of_poll h.1]
  · exact .inl rfl
  · exact .inr (.inl rfl)
  · exact .inr (.inr (.inl ⟨rfl, h.2.2.2⟩))
  · exact .inr (.inr (.inr (.inl ⟨rfl, h.2.2.2.1⟩)))
  · exact .inr (.inr (.inr (.inr (.inl ⟨rfl, h.2.2.2.1, h.2.2.2.2.2.2⟩))))
  · exact .inr (.inr (.inr (.inr (.inr ⟨rfl, h.2.2.2.1⟩))))

end Sys2Proof.Machine
end

