-- ==== Sys2Proof/Laws/Claims.lean ====
section
/-! SUPPORT. The words the statements use, in terms of the model's operations. -/

namespace Sys2Proof.Claims

open Sys2Proof.Machine

theorem pair_eq (l h : Byte) : pair l h = word h l := by
  have := h.isLt
  have := l.isLt
  apply BitVec.eq_of_toNat_eq
  rw [toNat_word, pair, BitVec.toNat_ofNat]
  omega

theorem plus_eq (w : Word) (k : Nat) : plus w k = w + BitVec.ofNat 16 k := by
  apply BitVec.eq_of_toNat_eq
  simp [plus, BitVec.toNat_add]

theorem plus_byte (w : Word) (b : Byte) : plus w b.toNat = w + zext16 b := by
  apply BitVec.eq_of_toNat_eq
  simp [plus, BitVec.toNat_add, toNat_zext16]

theorem toNat_plus (w : Word) (k : Nat) : (plus w k).toNat = (w.toNat + k) % 65536 := by
  rw [plus, BitVec.toNat_ofNat, Nat.mod_eq_of_lt (Nat.mod_lt _ (by decide))]

theorem plus_zero (w : Word) : plus w 0 = w := by
  apply BitVec.eq_of_toNat_eq
  rw [toNat_plus, Nat.add_zero, Nat.mod_eq_of_lt w.isLt]

/-- Offsets reach one address exactly when they agree mod 65536. -/
theorem plus_inj (w : Word) (j k : Nat) : plus w j = plus w k ↔ j % 65536 = k % 65536 := by
  rw [← BitVec.toNat_inj, toNat_plus, toNat_plus]
  omega

theorem plus_pred (w : Word) : plus w 65535 = w - 1#16 := by
  have := w.isLt
  apply BitVec.eq_of_toNat_eq
  rw [toNat_plus, BitVec.toNat_sub, BitVec.toNat_ofNat]
  omega

theorem zeroPage_eq (n k : Byte) : zeroPage n.toNat k.toNat = zext16 (n + k) := by
  apply BitVec.eq_of_toNat_eq
  simp only [zeroPage, BitVec.toNat_ofNat, toNat_zext16, BitVec.toNat_add]
  omega

theorem zeroPage_zero (n : Byte) : zeroPage n.toNat 0 = zext16 n := by
  simpa using zeroPage_eq n 0#8

theorem zeroPage_one (n : Byte) : zeroPage n.toNat 1 = zext16 (n + 1#8) := zeroPage_eq n 1#8

theorem zeroPageWord_eq (m : Memory) (z : Byte) : zeroPageWord m z.toNat = m.readWordZeroPage z := by
  rw [zeroPageWord, pair_eq, zeroPage_zero, zeroPage_one, Memory.readWordZeroPage_eq]

theorem zeroPageWord_mod (m : Memory) (z : Nat) : zeroPageWord m z = zeroPageWord m (z % 256) := by
  simp [zeroPageWord, zeroPage]

theorem wordAt_eq (m : Memory) (a : Word) : wordAt m a = m.readWord a := by
  rw [wordAt, pair_eq, plus_eq, Memory.readWord_eq]

theorem pageWrap_eq (m : Memory) (a : Word) :
    pair (m.read a) (m.read (BitVec.ofNat 16 (a.toNat / 256 * 256 + (a.toNat + 1) % 256))) = m.readWordPageWrap a := by
  have ha := a.isLt
  have : BitVec.ofNat 16 (a.toNat / 256 * 256 + (a.toNat + 1) % 256) = word (hi a) (lo (a + 1#16)) := by
    apply BitVec.eq_of_toNat_eq
    rw [toNat_word, toNat_hi, toNat_lo, BitVec.toNat_add]
    simp only [BitVec.toNat_ofNat]
    omega
  rw [pair_eq, this, Memory.readWordPageWrap_eq]

theorem stackByte_eq (sp : Byte) : stackByte sp.toNat = stackAddress sp := by
  have := sp.isLt
  apply BitVec.eq_of_toNat_eq
  rw [toNat_stackAddress, stackByte, BitVec.toNat_ofNat]
  omega

theorem stackByte_mod {j k : Nat} (h : j % 256 = k % 256) : stackByte j = stackByte k := by simp [stackByte, h]

/-- The stack byte `k` above SP. -/
theorem stackByte_add (sp : Byte) (k : Nat) : stackByte (sp.toNat + k) = stackAddress (sp + BitVec.ofNat 8 k) := by
  rw [← stackByte_eq]
  apply stackByte_mod
  simp [BitVec.toNat_add]

/-- The stack byte `k` below SP. -/
theorem stackByte_sub (sp : Byte) (k : Nat) (h : k ≤ 256) :
    stackByte (sp.toNat + 256 - k) = stackAddress (sp - BitVec.ofNat 8 k) := by
  rw [← stackByte_eq]
  apply stackByte_mod
  simp only [BitVec.toNat_sub, BitVec.toNat_ofNat]
  omega

theorem highByte_eq (w : Word) : highByte w = hi w := by
  have := w.isLt
  apply BitVec.eq_of_toNat_eq
  rw [toNat_hi, highByte, BitVec.toNat_ofNat]
  omega

theorem lowByte_eq (w : Word) : lowByte w = lo w := by
  apply BitVec.eq_of_toNat_eq
  rw [toNat_lo, lowByte, BitVec.toNat_ofNat]
  omega

theorem signed8_eq (b : Byte) : signed8 b = b.toInt := by
  rw [signed8, BitVec.toInt_eq_toNat_cond]
  split <;> split <;> omega

theorem nz_eq (f : Flags) (v : Byte) : nz f v = f.setNZ v := (Flags.setNZ_eq f v).symm

theorem incOf_eq (v : Byte) : incOf v = increment v := by
  apply BitVec.eq_of_toNat_eq
  rw [increment_toNat, incOf, BitVec.toNat_ofNat]
  omega

theorem decOf_eq (v : Byte) : decOf v = decrement v := by
  apply BitVec.eq_of_toNat_eq
  rw [decrement_toNat, decOf, BitVec.toNat_ofNat]
  omega

theorem flagsOf_eq (b : Byte) : flagsOf b = Flags.ofByte b := by
  have h : ∀ b : Byte, flagsOf b = Flags.ofByte b := by decide
  exact h b

theorem instructionStatus_eq (f : Flags) : BitVec.ofNat 8 (flagBits f + 48) = f.pushedByInstruction := by
  obtain ⟨n, v, d, i, z, c⟩ := f
  cases n <;> cases v <;> cases d <;> cases i <;> cases z <;> cases c <;> rfl

theorem interruptStatus_eq (f : Flags) : BitVec.ofNat 8 (flagBits f + 32) = f.pushedByInterrupt := by
  obtain ⟨n, v, d, i, z, c⟩ := f
  cases n <;> cases v <;> cases d <;> cases i <;> cases z <;> cases c <;> rfl

/-- SP moved by a number of bytes. -/
theorem sp_add (sp : Byte) (k : Nat) : BitVec.ofNat 8 ((sp.toNat + k) % 256) = sp + BitVec.ofNat 8 k := by
  apply BitVec.eq_of_toNat_eq
  simp [BitVec.toNat_add]

/-- SP moved down by one, two or three bytes. -/
theorem sp_sub_one (sp : Byte) : BitVec.ofNat 8 ((sp.toNat + 255) % 256) = sp - 1#8 := by
  apply BitVec.eq_of_toNat_eq
  simp only [BitVec.toNat_sub, BitVec.toNat_ofNat]
  omega

theorem sp_sub_two (sp : Byte) : BitVec.ofNat 8 ((sp.toNat + 254) % 256) = sp - 1#8 - 1#8 := by
  apply BitVec.eq_of_toNat_eq
  simp only [BitVec.toNat_sub, BitVec.toNat_ofNat]
  omega

theorem sp_sub_three (sp : Byte) : BitVec.ofNat 8 ((sp.toNat + 253) % 256) = sp - 3#8 := by
  apply BitVec.eq_of_toNat_eq
  simp only [BitVec.toNat_sub, BitVec.toNat_ofNat]
  omega

theorem sub_three (sp : Byte) : sp - 1#8 - 1#8 - 1#8 = sp - 3#8 := by
  apply BitVec.eq_of_toNat_eq
  simp only [BitVec.toNat_sub, BitVec.toNat_ofNat]
  omega

/-- The first three stack bytes from SP down. -/
theorem stackByte_first (sp : Byte) : stackByte (sp.toNat + 256 - 0) = stackAddress sp := by
  rw [stackByte_sub sp 0 (by omega)]
  simp

theorem stackByte_second (sp : Byte) : stackByte (sp.toNat + 256 - 1) = stackAddress (sp - 1#8) :=
  stackByte_sub sp 1 (by omega)

theorem stackByte_third (sp : Byte) : stackByte (sp.toNat + 256 - 2) = stackAddress (sp - 1#8 - 1#8) := by
  rw [stackByte_sub sp 2 (by omega)]
  congr 1
  apply BitVec.eq_of_toNat_eq
  simp only [BitVec.toNat_sub, BitVec.toNat_ofNat]
  omega

/-- The list of stored bytes read as a chain of address tests. -/
theorem lookup_cons_getD (a k : Word) (v d : Byte) (rest : List (Word × Byte)) :
    (List.lookup a ((k, v) :: rest)).getD d = if a = k then v else (List.lookup a rest).getD d := by
  by_cases h : a = k
  · simp [h]
  · rw [List.lookup_cons, beq_false_of_ne h, if_neg h]

/-- The page-cross signal as the statements write it. -/
theorem pageCrossed_eq (a b : Word) : pageCrossed a b = crosses a b := by
  simp only [pageCrossed, crosses, decide_eq_decide, ← toNat_hi]
  exact not_congr ⟨fun h => by rw [h], fun h => BitVec.eq_of_toNat_eq h⟩

/-- One byte written is `OneByte`. -/
theorem oneByte_write (m : Memory) (ea : Word) (v : Byte) : OneByte m (m.write ea v) ea v :=
  ⟨Memory.read_write_same .., fun _ h => Memory.read_write_other m v h⟩

/-- The three bytes of an interrupt entry are pushed, high byte, low byte, status. -/
theorem pushed_interruptEntry (ret : Word) (status : Byte) (vector : Word) (s : State) :
    Pushed s.mem (interruptEntry ret status vector s).mem s.sp.toNat [highByte ret, lowByte ret, status] := by
  have r := interruptEntry_reads ret status vector s
  rw [highByte_eq, lowByte_eq]
  constructor
  · intro k hk
    match k, hk with
    | 0, _ => rw [stackByte_first]; exact r.1
    | 1, _ => rw [stackByte_second]; exact r.2.1
    | 2, _ => rw [stackByte_third]; exact r.2.2
  · intro a h
    have h0 := h 0 (by simp)
    have h1 := h 1 (by simp)
    have h2 := h 2 (by simp)
    rw [stackByte_first] at h0
    rw [stackByte_second] at h1
    rw [stackByte_third] at h2
    exact interruptEntry_read_other ret status vector s a h0 h1 h2

/-- An interrupt entry is what the statements call one. -/
theorem enters_interruptEntry (ret : Word) (status : Byte) (vector : Word) (s : State) :
    Enters s (.next (interruptEntry ret status vector s)) ret status vector := by
  refine ⟨(interruptEntry ret status vector s).mem, congrArg _ ?_, pushed_interruptEntry ..⟩
  rw [sp_sub_three, ← sub_three, wordAt_eq]
  exact interruptEntry_eq ..

/-- The two bytes of a 16-bit push are pushed, high byte, low byte. -/
theorem pushed_push16 (s : State) (w : Word) :
    Pushed s.mem (s.push16 w).mem s.sp.toNat [highByte w, lowByte w] := by
  have hne := sp_ne_sub_one s.sp
  rw [highByte_eq, lowByte_eq]
  constructor
  · intro k hk
    match k, hk with
    | 0, _ => rw [stackByte_first]; simp [Memory.read_write, hne]
    | 1, _ => rw [stackByte_second]; simp
  · intro a h
    have h0 := h 0 (by simp)
    have h1 := h 1 (by simp)
    rw [stackByte_first] at h0
    rw [stackByte_second] at h1
    simp [Memory.read_write, h0, h1]

/-- The step of a quiet boundary is the instruction step, with the inputs of the boundary consumed. -/
theorem step_of_quiet {s : State} (h : Quiet s) : step s = instructionStep (afterInputs s) := by
  obtain ⟨h1, h2, h3, h4, h5, h6⟩ := h
  have hl : s.latch = afterInputs s := by simp only [State.latch, afterInputs, h5, Bool.or_false]
  have hp : poll s.nextInputs s.latch = .instruction := by rcases h6 with h6 | h6 <;> simp [poll, *, afterInputs]
  rw [step_of_poll hp, hl]
  rfl

end Sys2Proof.Claims
end

