-- ==== Sys2Proof/Laws/Exec.lean ====
section
/-! SUPPORT. One equation per shared operation of the meanings: the state it leaves, with every field it changes. A proof about an
instruction rewrites with these and never unfolds an operation. -/

namespace Sys2Proof.Machine

variable (m r : Byte) (ea : Word) (s : State)

/-! ### Loads, stores, transfers -/

theorem lda_eq : lda m s = { s with a := m, flags := s.flags.setNZ m } := rfl
theorem ldx_eq : ldx m s = { s with x := m, flags := s.flags.setNZ m } := rfl
theorem ldy_eq : ldy m s = { s with y := m, flags := s.flags.setNZ m } := rfl
theorem sta_eq : sta ea s = { s with mem := s.mem.write ea s.a } := rfl
theorem stx_eq : stx ea s = { s with mem := s.mem.write ea s.x } := rfl
theorem sty_eq : sty ea s = { s with mem := s.mem.write ea s.y } := rfl

/-! ### Increment, decrement, logic, shifts -/

theorem inc_eq : inc ea s =
    { s with mem := s.mem.write ea (increment (s.mem.read ea)), flags := s.flags.setNZ (increment (s.mem.read ea)) } := rfl
theorem dec_eq : dec ea s =
    { s with mem := s.mem.write ea (decrement (s.mem.read ea)), flags := s.flags.setNZ (decrement (s.mem.read ea)) } := rfl
theorem ora_eq : ora m s = { s with a := s.a ||| m, flags := s.flags.setNZ (s.a ||| m) } := rfl
theorem and_eq : and m s = { s with a := s.a &&& m, flags := s.flags.setNZ (s.a &&& m) } := rfl
theorem eor_eq : eor m s = { s with a := s.a ^^^ m, flags := s.flags.setNZ (s.a ^^^ m) } := rfl
theorem shiftAt_acc (r : ShiftResult) : shiftAt .acc r s =
    { s with a := r.value, flags := Flags.setNZ { s.flags with c := r.carry } r.value } := rfl
theorem shiftAt_addr (r : ShiftResult) : shiftAt (.addr ea) r s =
    { s with mem := s.mem.write ea r.value, flags := Flags.setNZ { s.flags with c := r.carry } r.value } := rfl

/-! ### Arithmetic, comparison, branches, jumps -/

theorem sumToA_eq (r : SumResult) : sumToA r s =
    { s with a := r.value, flags := Flags.setNZ { s.flags with c := r.carry, v := r.overflow } r.value } := rfl
theorem adc_eq : adc m s = sumToA (add s.a m s.flags.c) s := rfl
theorem sbc_eq : sbc m s = sumToA (sub s.a m s.flags.c) s := rfl
theorem cmp_eq : cmp m s = { s with flags := s.flags.compare s.a m } := rfl
theorem cpx_eq : cpx m s = { s with flags := s.flags.compare s.x m } := rfl
theorem cpy_eq : cpy m s = { s with flags := s.flags.compare s.y m } := rfl
theorem bit_eq : bit m s = { s with flags := s.flags.bitTest s.a m } := rfl
theorem branch_eq (taken : Bool) (d : Int) :
    branch taken d s = if taken then { s with pc := s.pc + wrap16 d } else s := rfl
theorem jmp_eq : jmp ea s = { s with pc := ea } := rfl

/-! ### The stack -/

theorem push_eq : s.push m = { s with mem := s.mem.write (stackAddress s.sp) m, sp := s.sp - 1#8 } := rfl
theorem push16_eq (w : Word) : s.push16 w =
    { s with mem := (s.mem.write (stackAddress s.sp) (hi w)).write (stackAddress (s.sp - 1#8)) (lo w),
             sp := s.sp - 1#8 - 1#8 } := rfl
theorem interruptReturn_eq : interruptReturn s =
    { s with
      sp := s.sp + 1#8 + 1#8 + 1#8
      flags := Flags.ofByte (s.mem.read (stackAddress (s.sp + 1#8)))
      pc := word (s.mem.read (stackAddress (s.sp + 1#8 + 1#8 + 1#8))) (s.mem.read (stackAddress (s.sp + 1#8 + 1#8))) } := rfl

/-! ### Field by field -/

section Fields

variable (p : Place) (v : Byte)

@[simp] theorem place_write_x : (p.write v s).x = s.x := by cases p <;> rfl
@[simp] theorem place_write_y : (p.write v s).y = s.y := by cases p <;> rfl
@[simp] theorem place_write_sp : (p.write v s).sp = s.sp := by cases p <;> rfl
@[simp] theorem place_write_pc : (p.write v s).pc = s.pc := by cases p <;> rfl
@[simp] theorem place_write_flags : (p.write v s).flags = s.flags := by cases p <;> rfl
@[simp] theorem place_write_halted : (p.write v s).halted = s.halted := by cases p <;> rfl
@[simp] theorem place_write_faultRecord : (p.write v s).faultRecord = s.faultRecord := by cases p <;> rfl
@[simp] theorem place_write_nmiPending : (p.write v s).nmiPending = s.nmiPending := by cases p <;> rfl
@[simp] theorem place_write_inputs : (p.write v s).inputs = s.inputs := by cases p <;> rfl
@[simp] theorem acc_write_a : (Place.acc.write v s).a = v := rfl
@[simp] theorem addr_write_a : ((Place.addr ea).write v s).a = s.a := rfl
@[simp] theorem acc_write_mem : (Place.acc.write v s).mem = s.mem := rfl
@[simp] theorem addr_write_mem : ((Place.addr ea).write v s).mem = s.mem.write ea v := rfl
@[simp] theorem acc_read : Place.acc.read s = s.a := rfl
@[simp] theorem addr_read : (Place.addr ea).read s = s.mem.read ea := rfl

@[simp] theorem lda_a : (lda m s).a = m := rfl
@[simp] theorem lda_x : (lda m s).x = s.x := rfl
@[simp] theorem lda_y : (lda m s).y = s.y := rfl
@[simp] theorem lda_sp : (lda m s).sp = s.sp := rfl
@[simp] theorem lda_pc : (lda m s).pc = s.pc := rfl
@[simp] theorem lda_flags : (lda m s).flags = s.flags.setNZ m := rfl
@[simp] theorem lda_mem : (lda m s).mem = s.mem := rfl
@[simp] theorem lda_halted : (lda m s).halted = s.halted := rfl
@[simp] theorem lda_faultRecord : (lda m s).faultRecord = s.faultRecord := rfl
@[simp] theorem lda_nmiPending : (lda m s).nmiPending = s.nmiPending := rfl
@[simp] theorem lda_inputs : (lda m s).inputs = s.inputs := rfl

@[simp] theorem ldx_a : (ldx m s).a = s.a := rfl
@[simp] theorem ldx_x : (ldx m s).x = m := rfl
@[simp] theorem ldx_y : (ldx m s).y = s.y := rfl
@[simp] theorem ldx_sp : (ldx m s).sp = s.sp := rfl
@[simp] theorem ldx_pc : (ldx m s).pc = s.pc := rfl
@[simp] theorem ldx_flags : (ldx m s).flags = s.flags.setNZ m := rfl
@[simp] theorem ldx_mem : (ldx m s).mem = s.mem := rfl
@[simp] theorem ldx_halted : (ldx m s).halted = s.halted := rfl
@[simp] theorem ldx_faultRecord : (ldx m s).faultRecord = s.faultRecord := rfl
@[simp] theorem ldx_nmiPending : (ldx m s).nmiPending = s.nmiPending := rfl
@[simp] theorem ldx_inputs : (ldx m s).inputs = s.inputs := rfl

@[simp] theorem ldy_a : (ldy m s).a = s.a := rfl
@[simp] theorem ldy_x : (ldy m s).x = s.x := rfl
@[simp] theorem ldy_y : (ldy m s).y = m := rfl
@[simp] theorem ldy_sp : (ldy m s).sp = s.sp := rfl
@[simp] theorem ldy_pc : (ldy m s).pc = s.pc := rfl
@[simp] theorem ldy_flags : (ldy m s).flags = s.flags.setNZ m := rfl
@[simp] theorem ldy_mem : (ldy m s).mem = s.mem := rfl
@[simp] theorem ldy_halted : (ldy m s).halted = s.halted := rfl
@[simp] theorem ldy_faultRecord : (ldy m s).faultRecord = s.faultRecord := rfl
@[simp] theorem ldy_nmiPending : (ldy m s).nmiPending = s.nmiPending := rfl
@[simp] theorem ldy_inputs : (ldy m s).inputs = s.inputs := rfl

@[simp] theorem sta_a : (sta ea s).a = s.a := rfl
@[simp] theorem sta_x : (sta ea s).x = s.x := rfl
@[simp] theorem sta_y : (sta ea s).y = s.y := rfl
@[simp] theorem sta_sp : (sta ea s).sp = s.sp := rfl
@[simp] theorem sta_pc : (sta ea s).pc = s.pc := rfl
@[simp] theorem sta_flags : (sta ea s).flags = s.flags := rfl
@[simp] theorem sta_mem : (sta ea s).mem = s.mem.write ea s.a := rfl
@[simp] theorem sta_halted : (sta ea s).halted = s.halted := rfl
@[simp] theorem sta_faultRecord : (sta ea s).faultRecord = s.faultRecord := rfl
@[simp] theorem sta_nmiPending : (sta ea s).nmiPending = s.nmiPending := rfl
@[simp] theorem sta_inputs : (sta ea s).inputs = s.inputs := rfl

@[simp] theorem stx_a : (stx ea s).a = s.a := rfl
@[simp] theorem stx_x : (stx ea s).x = s.x := rfl
@[simp] theorem stx_y : (stx ea s).y = s.y := rfl
@[simp] theorem stx_sp : (stx ea s).sp = s.sp := rfl
@[simp] theorem stx_pc : (stx ea s).pc = s.pc := rfl
@[simp] theorem stx_flags : (stx ea s).flags = s.flags := rfl
@[simp] theorem stx_mem : (stx ea s).mem = s.mem.write ea s.x := rfl
@[simp] theorem stx_halted : (stx ea s).halted = s.halted := rfl
@[simp] theorem stx_faultRecord : (stx ea s).faultRecord = s.faultRecord := rfl
@[simp] theorem stx_nmiPending : (stx ea s).nmiPending = s.nmiPending := rfl
@[simp] theorem stx_inputs : (stx ea s).inputs = s.inputs := rfl

@[simp] theorem sty_a : (sty ea s).a = s.a := rfl
@[simp] theorem sty_x : (sty ea s).x = s.x := rfl
@[simp] theorem sty_y : (sty ea s).y = s.y := rfl
@[simp] theorem sty_sp : (sty ea s).sp = s.sp := rfl
@[simp] theorem sty_pc : (sty ea s).pc = s.pc := rfl
@[simp] theorem sty_flags : (sty ea s).flags = s.flags := rfl
@[simp] theorem sty_mem : (sty ea s).mem = s.mem.write ea s.y := rfl
@[simp] theorem sty_halted : (sty ea s).halted = s.halted := rfl
@[simp] theorem sty_faultRecord : (sty ea s).faultRecord = s.faultRecord := rfl
@[simp] theorem sty_nmiPending : (sty ea s).nmiPending = s.nmiPending := rfl
@[simp] theorem sty_inputs : (sty ea s).inputs = s.inputs := rfl

@[simp] theorem inc_a : (inc ea s).a = s.a := rfl
@[simp] theorem inc_x : (inc ea s).x = s.x := rfl
@[simp] theorem inc_y : (inc ea s).y = s.y := rfl
@[simp] theorem inc_sp : (inc ea s).sp = s.sp := rfl
@[simp] theorem inc_pc : (inc ea s).pc = s.pc := rfl
@[simp] theorem inc_flags : (inc ea s).flags = s.flags.setNZ (increment (s.mem.read ea)) := rfl
@[simp] theorem inc_mem : (inc ea s).mem = s.mem.write ea (increment (s.mem.read ea)) := rfl
@[simp] theorem inc_halted : (inc ea s).halted = s.halted := rfl
@[simp] theorem inc_faultRecord : (inc ea s).faultRecord = s.faultRecord := rfl
@[simp] theorem inc_nmiPending : (inc ea s).nmiPending = s.nmiPending := rfl
@[simp] theorem inc_inputs : (inc ea s).inputs = s.inputs := rfl

@[simp] theorem dec_a : (dec ea s).a = s.a := rfl
@[simp] theorem dec_x : (dec ea s).x = s.x := rfl
@[simp] theorem dec_y : (dec ea s).y = s.y := rfl
@[simp] theorem dec_sp : (dec ea s).sp = s.sp := rfl
@[simp] theorem dec_pc : (dec ea s).pc = s.pc := rfl
@[simp] theorem dec_flags : (dec ea s).flags = s.flags.setNZ (decrement (s.mem.read ea)) := rfl
@[simp] theorem dec_mem : (dec ea s).mem = s.mem.write ea (decrement (s.mem.read ea)) := rfl
@[simp] theorem dec_halted : (dec ea s).halted = s.halted := rfl
@[simp] theorem dec_faultRecord : (dec ea s).faultRecord = s.faultRecord := rfl
@[simp] theorem dec_nmiPending : (dec ea s).nmiPending = s.nmiPending := rfl
@[simp] theorem dec_inputs : (dec ea s).inputs = s.inputs := rfl

@[simp] theorem ora_a : (ora m s).a = s.a ||| m := rfl
@[simp] theorem ora_x : (ora m s).x = s.x := rfl
@[simp] theorem ora_y : (ora m s).y = s.y := rfl
@[simp] theorem ora_sp : (ora m s).sp = s.sp := rfl
@[simp] theorem ora_pc : (ora m s).pc = s.pc := rfl
@[simp] theorem ora_flags : (ora m s).flags = s.flags.setNZ (s.a ||| m) := rfl
@[simp] theorem ora_mem : (ora m s).mem = s.mem := rfl
@[simp] theorem ora_halted : (ora m s).halted = s.halted := rfl
@[simp] theorem ora_faultRecord : (ora m s).faultRecord = s.faultRecord := rfl
@[simp] theorem ora_nmiPending : (ora m s).nmiPending = s.nmiPending := rfl
@[simp] theorem ora_inputs : (ora m s).inputs = s.inputs := rfl

@[simp] theorem and_a : (and m s).a = s.a &&& m := rfl
@[simp] theorem and_x : (and m s).x = s.x := rfl
@[simp] theorem and_y : (and m s).y = s.y := rfl
@[simp] theorem and_sp : (and m s).sp = s.sp := rfl
@[simp] theorem and_pc : (and m s).pc = s.pc := rfl
@[simp] theorem and_flags : (and m s).flags = s.flags.setNZ (s.a &&& m) := rfl
@[simp] theorem and_mem : (and m s).mem = s.mem := rfl
@[simp] theorem and_halted : (and m s).halted = s.halted := rfl
@[simp] theorem and_faultRecord : (and m s).faultRecord = s.faultRecord := rfl
@[simp] theorem and_nmiPending : (and m s).nmiPending = s.nmiPending := rfl
@[simp] theorem and_inputs : (and m s).inputs = s.inputs := rfl

@[simp] theorem eor_a : (eor m s).a = s.a ^^^ m := rfl
@[simp] theorem eor_x : (eor m s).x = s.x := rfl
@[simp] theorem eor_y : (eor m s).y = s.y := rfl
@[simp] theorem eor_sp : (eor m s).sp = s.sp := rfl
@[simp] theorem eor_pc : (eor m s).pc = s.pc := rfl
@[simp] theorem eor_flags : (eor m s).flags = s.flags.setNZ (s.a ^^^ m) := rfl
@[simp] theorem eor_mem : (eor m s).mem = s.mem := rfl
@[simp] theorem eor_halted : (eor m s).halted = s.halted := rfl
@[simp] theorem eor_faultRecord : (eor m s).faultRecord = s.faultRecord := rfl
@[simp] theorem eor_nmiPending : (eor m s).nmiPending = s.nmiPending := rfl
@[simp] theorem eor_inputs : (eor m s).inputs = s.inputs := rfl

@[simp] theorem asl_a : (asl p s).a = (p.write (shiftLeft (p.read s)).value s).a := rfl
@[simp] theorem asl_x : (asl p s).x = s.x := place_write_x ..
@[simp] theorem asl_y : (asl p s).y = s.y := place_write_y ..
@[simp] theorem asl_sp : (asl p s).sp = s.sp := place_write_sp ..
@[simp] theorem asl_pc : (asl p s).pc = s.pc := place_write_pc ..
@[simp] theorem asl_flags : (asl p s).flags =
    Flags.setNZ ⟨s.flags.n, s.flags.v, s.flags.d, s.flags.i, s.flags.z, (shiftLeft (p.read s)).carry⟩ (shiftLeft (p.read s)).value := rfl
@[simp] theorem asl_mem : (asl p s).mem = (p.write (shiftLeft (p.read s)).value s).mem := rfl
@[simp] theorem asl_halted : (asl p s).halted = s.halted := place_write_halted ..
@[simp] theorem asl_faultRecord : (asl p s).faultRecord = s.faultRecord := place_write_faultRecord ..
@[simp] theorem asl_nmiPending : (asl p s).nmiPending = s.nmiPending := place_write_nmiPending ..
@[simp] theorem asl_inputs : (asl p s).inputs = s.inputs := place_write_inputs ..

@[simp] theorem rol_a : (rol p s).a = (p.write (rotateLeft (p.read s) s.flags.c).value s).a := rfl
@[simp] theorem rol_x : (rol p s).x = s.x := place_write_x ..
@[simp] theorem rol_y : (rol p s).y = s.y := place_write_y ..
@[simp] theorem rol_sp : (rol p s).sp = s.sp := place_write_sp ..
@[simp] theorem rol_pc : (rol p s).pc = s.pc := place_write_pc ..
@[simp] theorem rol_flags : (rol p s).flags =
    Flags.setNZ ⟨s.flags.n, s.flags.v, s.flags.d, s.flags.i, s.flags.z, (rotateLeft (p.read s) s.flags.c).carry⟩ (rotateLeft (p.read s) s.flags.c).value := rfl
@[simp] theorem rol_mem : (rol p s).mem = (p.write (rotateLeft (p.read s) s.flags.c).value s).mem := rfl
@[simp] theorem rol_halted : (rol p s).halted = s.halted := place_write_halted ..
@[simp] theorem rol_faultRecord : (rol p s).faultRecord = s.faultRecord := place_write_faultRecord ..
@[simp] theorem rol_nmiPending : (rol p s).nmiPending = s.nmiPending := place_write_nmiPending ..
@[simp] theorem rol_inputs : (rol p s).inputs = s.inputs := place_write_inputs ..

@[simp] theorem ror_a : (ror p s).a = (p.write (rotateRight (p.read s) s.flags.c).value s).a := rfl
@[simp] theorem ror_x : (ror p s).x = s.x := place_write_x ..
@[simp] theorem ror_y : (ror p s).y = s.y := place_write_y ..
@[simp] theorem ror_sp : (ror p s).sp = s.sp := place_write_sp ..
@[simp] theorem ror_pc : (ror p s).pc = s.pc := place_write_pc ..
@[simp] theorem ror_flags : (ror p s).flags =
    Flags.setNZ ⟨s.flags.n, s.flags.v, s.flags.d, s.flags.i, s.flags.z, (rotateRight (p.read s) s.flags.c).carry⟩ (rotateRight (p.read s) s.flags.c).value := rfl
@[simp] theorem ror_mem : (ror p s).mem = (p.write (rotateRight (p.read s) s.flags.c).value s).mem := rfl
@[simp] theorem ror_halted : (ror p s).halted = s.halted := place_write_halted ..
@[simp] theorem ror_faultRecord : (ror p s).faultRecord = s.faultRecord := place_write_faultRecord ..
@[simp] theorem ror_nmiPending : (ror p s).nmiPending = s.nmiPending := place_write_nmiPending ..
@[simp] theorem ror_inputs : (ror p s).inputs = s.inputs := place_write_inputs ..

@[simp] theorem lsr_a : (lsr p s).a = (p.write (shiftRight (p.read s)).value s).a := rfl
@[simp] theorem lsr_x : (lsr p s).x = s.x := place_write_x ..
@[simp] theorem lsr_y : (lsr p s).y = s.y := place_write_y ..
@[simp] theorem lsr_sp : (lsr p s).sp = s.sp := place_write_sp ..
@[simp] theorem lsr_pc : (lsr p s).pc = s.pc := place_write_pc ..
@[simp] theorem lsr_flags : (lsr p s).flags =
    Flags.setNZ ⟨s.flags.n, s.flags.v, s.flags.d, s.flags.i, s.flags.z, (shiftRight (p.read s)).carry⟩ (shiftRight (p.read s)).value := rfl
@[simp] theorem lsr_mem : (lsr p s).mem = (p.write (shiftRight (p.read s)).value s).mem := rfl
@[simp] theorem lsr_halted : (lsr p s).halted = s.halted := place_write_halted ..
@[simp] theorem lsr_faultRecord : (lsr p s).faultRecord = s.faultRecord := place_write_faultRecord ..
@[simp] theorem lsr_nmiPending : (lsr p s).nmiPending = s.nmiPending := place_write_nmiPending ..
@[simp] theorem lsr_inputs : (lsr p s).inputs = s.inputs := place_write_inputs ..

@[simp] theorem adc_a : (adc m s).a = (add s.a m s.flags.c).value := rfl
@[simp] theorem adc_x : (adc m s).x = s.x := rfl
@[simp] theorem adc_y : (adc m s).y = s.y := rfl
@[simp] theorem adc_sp : (adc m s).sp = s.sp := rfl
@[simp] theorem adc_pc : (adc m s).pc = s.pc := rfl
@[simp] theorem adc_flags : (adc m s).flags =
    Flags.setNZ ⟨s.flags.n, (add s.a m s.flags.c).overflow, s.flags.d, s.flags.i, s.flags.z, (add s.a m s.flags.c).carry⟩ (add s.a m s.flags.c).value := rfl
@[simp] theorem adc_mem : (adc m s).mem = s.mem := rfl
@[simp] theorem adc_halted : (adc m s).halted = s.halted := rfl
@[simp] theorem adc_faultRecord : (adc m s).faultRecord = s.faultRecord := rfl
@[simp] theorem adc_nmiPending : (adc m s).nmiPending = s.nmiPending := rfl
@[simp] theorem adc_inputs : (adc m s).inputs = s.inputs := rfl

@[simp] theorem sbc_a : (sbc m s).a = (sub s.a m s.flags.c).value := rfl
@[simp] theorem sbc_x : (sbc m s).x = s.x := rfl
@[simp] theorem sbc_y : (sbc m s).y = s.y := rfl
@[simp] theorem sbc_sp : (sbc m s).sp = s.sp := rfl
@[simp] theorem sbc_pc : (sbc m s).pc = s.pc := rfl
@[simp] theorem sbc_flags : (sbc m s).flags =
    Flags.setNZ ⟨s.flags.n, (sub s.a m s.flags.c).overflow, s.flags.d, s.flags.i, s.flags.z, (sub s.a m s.flags.c).carry⟩ (sub s.a m s.flags.c).value := rfl
@[simp] theorem sbc_mem : (sbc m s).mem = s.mem := rfl
@[simp] theorem sbc_halted : (sbc m s).halted = s.halted := rfl
@[simp] theorem sbc_faultRecord : (sbc m s).faultRecord = s.faultRecord := rfl
@[simp] theorem sbc_nmiPending : (sbc m s).nmiPending = s.nmiPending := rfl
@[simp] theorem sbc_inputs : (sbc m s).inputs = s.inputs := rfl

@[simp] theorem cmp_a : (cmp m s).a = s.a := rfl
@[simp] theorem cmp_x : (cmp m s).x = s.x := rfl
@[simp] theorem cmp_y : (cmp m s).y = s.y := rfl
@[simp] theorem cmp_sp : (cmp m s).sp = s.sp := rfl
@[simp] theorem cmp_pc : (cmp m s).pc = s.pc := rfl
@[simp] theorem cmp_flags : (cmp m s).flags = s.flags.compare s.a m := rfl
@[simp] theorem cmp_mem : (cmp m s).mem = s.mem := rfl
@[simp] theorem cmp_halted : (cmp m s).halted = s.halted := rfl
@[simp] theorem cmp_faultRecord : (cmp m s).faultRecord = s.faultRecord := rfl
@[simp] theorem cmp_nmiPending : (cmp m s).nmiPending = s.nmiPending := rfl
@[simp] theorem cmp_inputs : (cmp m s).inputs = s.inputs := rfl

@[simp] theorem cpx_a : (cpx m s).a = s.a := rfl
@[simp] theorem cpx_x : (cpx m s).x = s.x := rfl
@[simp] theorem cpx_y : (cpx m s).y = s.y := rfl
@[simp] theorem cpx_sp : (cpx m s).sp = s.sp := rfl
@[simp] theorem cpx_pc : (cpx m s).pc = s.pc := rfl
@[simp] theorem cpx_flags : (cpx m s).flags = s.flags.compare s.x m := rfl
@[simp] theorem cpx_mem : (cpx m s).mem = s.mem := rfl
@[simp] theorem cpx_halted : (cpx m s).halted = s.halted := rfl
@[simp] theorem cpx_faultRecord : (cpx m s).faultRecord = s.faultRecord := rfl
@[simp] theorem cpx_nmiPending : (cpx m s).nmiPending = s.nmiPending := rfl
@[simp] theorem cpx_inputs : (cpx m s).inputs = s.inputs := rfl

@[simp] theorem cpy_a : (cpy m s).a = s.a := rfl
@[simp] theorem cpy_x : (cpy m s).x = s.x := rfl
@[simp] theorem cpy_y : (cpy m s).y = s.y := rfl
@[simp] theorem cpy_sp : (cpy m s).sp = s.sp := rfl
@[simp] theorem cpy_pc : (cpy m s).pc = s.pc := rfl
@[simp] theorem cpy_flags : (cpy m s).flags = s.flags.compare s.y m := rfl
@[simp] theorem cpy_mem : (cpy m s).mem = s.mem := rfl
@[simp] theorem cpy_halted : (cpy m s).halted = s.halted := rfl
@[simp] theorem cpy_faultRecord : (cpy m s).faultRecord = s.faultRecord := rfl
@[simp] theorem cpy_nmiPending : (cpy m s).nmiPending = s.nmiPending := rfl
@[simp] theorem cpy_inputs : (cpy m s).inputs = s.inputs := rfl

@[simp] theorem bit_a : (bit m s).a = s.a := rfl
@[simp] theorem bit_x : (bit m s).x = s.x := rfl
@[simp] theorem bit_y : (bit m s).y = s.y := rfl
@[simp] theorem bit_sp : (bit m s).sp = s.sp := rfl
@[simp] theorem bit_pc : (bit m s).pc = s.pc := rfl
@[simp] theorem bit_flags : (bit m s).flags = s.flags.bitTest s.a m := rfl
@[simp] theorem bit_mem : (bit m s).mem = s.mem := rfl
@[simp] theorem bit_halted : (bit m s).halted = s.halted := rfl
@[simp] theorem bit_faultRecord : (bit m s).faultRecord = s.faultRecord := rfl
@[simp] theorem bit_nmiPending : (bit m s).nmiPending = s.nmiPending := rfl
@[simp] theorem bit_inputs : (bit m s).inputs = s.inputs := rfl

@[simp] theorem jmp_a : (jmp ea s).a = s.a := rfl
@[simp] theorem jmp_x : (jmp ea s).x = s.x := rfl
@[simp] theorem jmp_y : (jmp ea s).y = s.y := rfl
@[simp] theorem jmp_sp : (jmp ea s).sp = s.sp := rfl
@[simp] theorem jmp_pc : (jmp ea s).pc = ea := rfl
@[simp] theorem jmp_flags : (jmp ea s).flags = s.flags := rfl
@[simp] theorem jmp_mem : (jmp ea s).mem = s.mem := rfl
@[simp] theorem jmp_halted : (jmp ea s).halted = s.halted := rfl
@[simp] theorem jmp_faultRecord : (jmp ea s).faultRecord = s.faultRecord := rfl
@[simp] theorem jmp_nmiPending : (jmp ea s).nmiPending = s.nmiPending := rfl
@[simp] theorem jmp_inputs : (jmp ea s).inputs = s.inputs := rfl

variable (taken : Bool) (d : Int)

@[simp] theorem branch_a : (branch taken d s).a = s.a := by cases taken <;> rfl
@[simp] theorem branch_x : (branch taken d s).x = s.x := by cases taken <;> rfl
@[simp] theorem branch_y : (branch taken d s).y = s.y := by cases taken <;> rfl
@[simp] theorem branch_sp : (branch taken d s).sp = s.sp := by cases taken <;> rfl
@[simp] theorem branch_pc : (branch taken d s).pc = if taken then s.pc + wrap16 d else s.pc := by cases taken <;> rfl
@[simp] theorem branch_flags : (branch taken d s).flags = s.flags := by cases taken <;> rfl
@[simp] theorem branch_mem : (branch taken d s).mem = s.mem := by cases taken <;> rfl
@[simp] theorem branch_halted : (branch taken d s).halted = s.halted := by cases taken <;> rfl
@[simp] theorem branch_faultRecord : (branch taken d s).faultRecord = s.faultRecord := by cases taken <;> rfl
@[simp] theorem branch_nmiPending : (branch taken d s).nmiPending = s.nmiPending := by cases taken <;> rfl
@[simp] theorem branch_inputs : (branch taken d s).inputs = s.inputs := by cases taken <;> rfl

end Fields

end Sys2Proof.Machine
end

