-- ==== Sys2Proof/Tests/Slice0.lean ====
section
/-! SUPPORT. The model's own tests: ill-formed terms refused, every constructor's decoding from a word of the spec's table, vectors
of the spec's 95_test_vectors, and a witness for every statement with hypotheses. -/

namespace Sys2Proof.Tests

open Sys2Proof.Machine

/-! ### Ill-formed terms are refused (30_encoding R122: an offset lies in -128..+127) -/

theorem test_bpl_offset_range : (Instr.bpl 128).wellFormed = false ∧ (Instr.bpl (-129)).wellFormed = false ∧
    (Instr.bpl 127).wellFormed = true ∧ (Instr.bpl (-128)).wellFormed = true := by decide
theorem test_bmi_offset_range : (Instr.bmi 128).wellFormed = false ∧ (Instr.bmi (-129)).wellFormed = false ∧
    (Instr.bmi 127).wellFormed = true ∧ (Instr.bmi (-128)).wellFormed = true := by decide
theorem test_bvc_offset_range : (Instr.bvc 128).wellFormed = false ∧ (Instr.bvc (-129)).wellFormed = false ∧
    (Instr.bvc 127).wellFormed = true ∧ (Instr.bvc (-128)).wellFormed = true := by decide
theorem test_bvs_offset_range : (Instr.bvs 128).wellFormed = false ∧ (Instr.bvs (-129)).wellFormed = false ∧
    (Instr.bvs 127).wellFormed = true ∧ (Instr.bvs (-128)).wellFormed = true := by decide
theorem test_bcc_offset_range : (Instr.bcc 128).wellFormed = false ∧ (Instr.bcc (-129)).wellFormed = false ∧
    (Instr.bcc 127).wellFormed = true ∧ (Instr.bcc (-128)).wellFormed = true := by decide
theorem test_bcs_offset_range : (Instr.bcs 128).wellFormed = false ∧ (Instr.bcs (-129)).wellFormed = false ∧
    (Instr.bcs 127).wellFormed = true ∧ (Instr.bcs (-128)).wellFormed = true := by decide
theorem test_bne_offset_range : (Instr.bne 128).wellFormed = false ∧ (Instr.bne (-129)).wellFormed = false ∧
    (Instr.bne 127).wellFormed = true ∧ (Instr.bne (-128)).wellFormed = true := by decide
theorem test_beq_offset_range : (Instr.beq 128).wellFormed = false ∧ (Instr.beq (-129)).wellFormed = false ∧
    (Instr.beq 127).wellFormed = true ∧ (Instr.beq (-128)).wellFormed = true := by decide

/-! ### Every constructor from a word of the opcode table (30_encoding R126): opcode in bits 7..0, operand bytes above it -/

theorem test_decode_00_to_21 :
    decodeTableWord 8 0x00 = some .brk ∧
    decodeTableWord 16 0x8801 = some (.oraIndX 0x88#8) ∧
    decodeTableWord 16 0x8D05 = some (.oraZp 0x8D#8) ∧
    decodeTableWord 16 0x9206 = some (.aslZp 0x92#8) ∧
    decodeTableWord 8 0x08 = some .php ∧
    decodeTableWord 16 0x9C09 = some (.oraImm 0x9C#8) ∧
    decodeTableWord 8 0x0A = some .aslAcc ∧
    decodeTableWord 24 0xC7A60D = some (.oraAbs 0xC7A6#16) ∧
    decodeTableWord 24 0xC8AB0E = some (.aslAbs 0xC8AB#16) ∧
    decodeTableWord 16 0x8010 = some (.bpl (-128)) ∧
    decodeTableWord 16 0xB511 = some (.oraIndY 0xB5#8) ∧
    decodeTableWord 16 0xBA15 = some (.oraZpX 0xBA#8) ∧
    decodeTableWord 16 0xBF16 = some (.aslZpX 0xBF#8) ∧
    decodeTableWord 8 0x18 = some .clc ∧
    decodeTableWord 24 0xC4C919 = some (.oraAbsY 0xC4C9#16) ∧
    decodeTableWord 24 0xC5CE1D = some (.oraAbsX 0xC5CE#16) ∧
    decodeTableWord 24 0xC6D31E = some (.aslAbsX 0xC6D3#16) ∧
    decodeTableWord 24 0xC7D820 = some (.jsr 0xC7D8#16) ∧
    decodeTableWord 16 0xDD21 = some (.andIndX 0xDD#8) := by
  decide

theorem test_decode_24_to_41 :
    decodeTableWord 16 0x8324 = some (.bitZp 0x83#8) ∧
    decodeTableWord 16 0x8825 = some (.andZp 0x88#8) ∧
    decodeTableWord 16 0x8D26 = some (.rolZp 0x8D#8) ∧
    decodeTableWord 8 0x28 = some .plp ∧
    decodeTableWord 16 0x9729 = some (.andImm 0x97#8) ∧
    decodeTableWord 8 0x2A = some .rolAcc ∧
    decodeTableWord 24 0xC6A12C = some (.bitAbs 0xC6A1#16) ∧
    decodeTableWord 24 0xC7A62D = some (.andAbs 0xC7A6#16) ∧
    decodeTableWord 24 0xC8AB2E = some (.rolAbs 0xC8AB#16) ∧
    decodeTableWord 16 0xFB30 = some (.bmi (-5)) ∧
    decodeTableWord 16 0xB531 = some (.andIndY 0xB5#8) ∧
    decodeTableWord 16 0xBA35 = some (.andZpX 0xBA#8) ∧
    decodeTableWord 16 0xBF36 = some (.rolZpX 0xBF#8) ∧
    decodeTableWord 8 0x38 = some .sec ∧
    decodeTableWord 24 0xC4C939 = some (.andAbsY 0xC4C9#16) ∧
    decodeTableWord 24 0xC5CE3D = some (.andAbsX 0xC5CE#16) ∧
    decodeTableWord 24 0xC6D33E = some (.rolAbsX 0xC6D3#16) ∧
    decodeTableWord 8 0x40 = some .rti ∧
    decodeTableWord 16 0xDD41 = some (.eorIndX 0xDD#8) := by
  decide

theorem test_decode_45_to_65 :
    decodeTableWord 16 0x8345 = some (.eorZp 0x83#8) ∧
    decodeTableWord 16 0x8846 = some (.lsrZp 0x88#8) ∧
    decodeTableWord 8 0x48 = some .pha ∧
    decodeTableWord 16 0x9249 = some (.eorImm 0x92#8) ∧
    decodeTableWord 8 0x4A = some .lsrAcc ∧
    decodeTableWord 24 0xC59C4C = some (.jmpAbs 0xC59C#16) ∧
    decodeTableWord 24 0xC6A14D = some (.eorAbs 0xC6A1#16) ∧
    decodeTableWord 24 0xC7A64E = some (.lsrAbs 0xC7A6#16) ∧
    decodeTableWord 16 0x7F50 = some (.bvc 127) ∧
    decodeTableWord 16 0xB051 = some (.eorIndY 0xB0#8) ∧
    decodeTableWord 16 0xB555 = some (.eorZpX 0xB5#8) ∧
    decodeTableWord 16 0xBA56 = some (.lsrZpX 0xBA#8) ∧
    decodeTableWord 8 0x58 = some .cli ∧
    decodeTableWord 24 0xC3C459 = some (.eorAbsY 0xC3C4#16) ∧
    decodeTableWord 24 0xC4C95D = some (.eorAbsX 0xC4C9#16) ∧
    decodeTableWord 24 0xC5CE5E = some (.lsrAbsX 0xC5CE#16) ∧
    decodeTableWord 8 0x60 = some .rts ∧
    decodeTableWord 16 0xD861 = some (.adcIndX 0xD8#8) ∧
    decodeTableWord 16 0xDD65 = some (.adcZp 0xDD#8) := by
  decide

theorem test_decode_66_to_86 :
    decodeTableWord 16 0x8366 = some (.rorZp 0x83#8) ∧
    decodeTableWord 8 0x68 = some .pla ∧
    decodeTableWord 16 0x8D69 = some (.adcImm 0x8D#8) ∧
    decodeTableWord 8 0x6A = some .rorAcc ∧
    decodeTableWord 24 0xC4976C = some (.jmpInd 0xC497#16) ∧
    decodeTableWord 24 0xC59C6D = some (.adcAbs 0xC59C#16) ∧
    decodeTableWord 24 0xC6A16E = some (.rorAbs 0xC6A1#16) ∧
    decodeTableWord 16 0x1070 = some (.bvs 16) ∧
    decodeTableWord 16 0xAB71 = some (.adcIndY 0xAB#8) ∧
    decodeTableWord 16 0xB075 = some (.adcZpX 0xB0#8) ∧
    decodeTableWord 16 0xB576 = some (.rorZpX 0xB5#8) ∧
    decodeTableWord 8 0x78 = some .sei ∧
    decodeTableWord 24 0xC2BF79 = some (.adcAbsY 0xC2BF#16) ∧
    decodeTableWord 24 0xC3C47D = some (.adcAbsX 0xC3C4#16) ∧
    decodeTableWord 24 0xC4C97E = some (.rorAbsX 0xC4C9#16) ∧
    decodeTableWord 16 0xCE81 = some (.staIndX 0xCE#8) ∧
    decodeTableWord 16 0xD384 = some (.styZp 0xD3#8) ∧
    decodeTableWord 16 0xD885 = some (.staZp 0xD8#8) ∧
    decodeTableWord 16 0xDD86 = some (.stxZp 0xDD#8) := by
  decide

theorem test_decode_88_to_A5 :
    decodeTableWord 8 0x88 = some .dey ∧
    decodeTableWord 8 0x8A = some .txa ∧
    decodeTableWord 24 0xC28D8C = some (.styAbs 0xC28D#16) ∧
    decodeTableWord 24 0xC3928D = some (.staAbs 0xC392#16) ∧
    decodeTableWord 24 0xC4978E = some (.stxAbs 0xC497#16) ∧
    decodeTableWord 16 0xFE90 = some (.bcc (-2)) ∧
    decodeTableWord 16 0xA191 = some (.staIndY 0xA1#8) ∧
    decodeTableWord 16 0xA694 = some (.styZpX 0xA6#8) ∧
    decodeTableWord 16 0xAB95 = some (.staZpX 0xAB#8) ∧
    decodeTableWord 16 0xB096 = some (.stxZpY 0xB0#8) ∧
    decodeTableWord 8 0x98 = some .tya ∧
    decodeTableWord 24 0xC1BA99 = some (.staAbsY 0xC1BA#16) ∧
    decodeTableWord 8 0x9A = some .txs ∧
    decodeTableWord 24 0xC3C49D = some (.staAbsX 0xC3C4#16) ∧
    decodeTableWord 16 0xC9A0 = some (.ldyImm 0xC9#8) ∧
    decodeTableWord 16 0xCEA1 = some (.ldaIndX 0xCE#8) ∧
    decodeTableWord 16 0xD3A2 = some (.ldxImm 0xD3#8) ∧
    decodeTableWord 16 0xD8A4 = some (.ldyZp 0xD8#8) ∧
    decodeTableWord 16 0xDDA5 = some (.ldaZp 0xDD#8) := by
  decide

theorem test_decode_A6_to_C0 :
    decodeTableWord 16 0x83A6 = some (.ldxZp 0x83#8) ∧
    decodeTableWord 8 0xA8 = some .tay ∧
    decodeTableWord 16 0x8DA9 = some (.ldaImm 0x8D#8) ∧
    decodeTableWord 8 0xAA = some .tax ∧
    decodeTableWord 24 0xC497AC = some (.ldyAbs 0xC497#16) ∧
    decodeTableWord 24 0xC59CAD = some (.ldaAbs 0xC59C#16) ∧
    decodeTableWord 24 0xC6A1AE = some (.ldxAbs 0xC6A1#16) ∧
    decodeTableWord 16 0x05B0 = some (.bcs 5) ∧
    decodeTableWord 16 0xABB1 = some (.ldaIndY 0xAB#8) ∧
    decodeTableWord 16 0xB0B4 = some (.ldyZpX 0xB0#8) ∧
    decodeTableWord 16 0xB5B5 = some (.ldaZpX 0xB5#8) ∧
    decodeTableWord 16 0xBAB6 = some (.ldxZpY 0xBA#8) ∧
    decodeTableWord 8 0xB8 = some .clv ∧
    decodeTableWord 24 0xC3C4B9 = some (.ldaAbsY 0xC3C4#16) ∧
    decodeTableWord 8 0xBA = some .tsx ∧
    decodeTableWord 24 0xC5CEBC = some (.ldyAbsX 0xC5CE#16) ∧
    decodeTableWord 24 0xC6D3BD = some (.ldaAbsX 0xC6D3#16) ∧
    decodeTableWord 24 0xC7D8BE = some (.ldxAbsY 0xC7D8#16) ∧
    decodeTableWord 16 0xDDC0 = some (.cpyImm 0xDD#8) := by
  decide

theorem test_decode_C1_to_E0 :
    decodeTableWord 16 0x83C1 = some (.cmpIndX 0x83#8) ∧
    decodeTableWord 16 0x88C4 = some (.cpyZp 0x88#8) ∧
    decodeTableWord 16 0x8DC5 = some (.cmpZp 0x8D#8) ∧
    decodeTableWord 16 0x92C6 = some (.decZp 0x92#8) ∧
    decodeTableWord 8 0xC8 = some .iny ∧
    decodeTableWord 16 0x9CC9 = some (.cmpImm 0x9C#8) ∧
    decodeTableWord 8 0xCA = some .dex ∧
    decodeTableWord 24 0xC7A6CC = some (.cpyAbs 0xC7A6#16) ∧
    decodeTableWord 24 0xC8ABCD = some (.cmpAbs 0xC8AB#16) ∧
    decodeTableWord 24 0xC9B0CE = some (.decAbs 0xC9B0#16) ∧
    decodeTableWord 16 0xFFD0 = some (.bne (-1)) ∧
    decodeTableWord 16 0xBAD1 = some (.cmpIndY 0xBA#8) ∧
    decodeTableWord 16 0xBFD5 = some (.cmpZpX 0xBF#8) ∧
    decodeTableWord 16 0xC4D6 = some (.decZpX 0xC4#8) ∧
    decodeTableWord 8 0xD8 = some .cld ∧
    decodeTableWord 24 0xC5CED9 = some (.cmpAbsY 0xC5CE#16) ∧
    decodeTableWord 24 0xC6D3DD = some (.cmpAbsX 0xC6D3#16) ∧
    decodeTableWord 24 0xC7D8DE = some (.decAbsX 0xC7D8#16) ∧
    decodeTableWord 16 0xDDE0 = some (.cpxImm 0xDD#8) := by
  decide

theorem test_decode_E1_to_FE :
    decodeTableWord 16 0x83E1 = some (.sbcIndX 0x83#8) ∧
    decodeTableWord 16 0x88E4 = some (.cpxZp 0x88#8) ∧
    decodeTableWord 16 0x8DE5 = some (.sbcZp 0x8D#8) ∧
    decodeTableWord 16 0x92E6 = some (.incZp 0x92#8) ∧
    decodeTableWord 8 0xE8 = some .inx ∧
    decodeTableWord 16 0x9CE9 = some (.sbcImm 0x9C#8) ∧
    decodeTableWord 8 0xEA = some .nop ∧
    decodeTableWord 24 0xC7A6EC = some (.cpxAbs 0xC7A6#16) ∧
    decodeTableWord 24 0xC8ABED = some (.sbcAbs 0xC8AB#16) ∧
    decodeTableWord 24 0xC9B0EE = some (.incAbs 0xC9B0#16) ∧
    decodeTableWord 16 0x00F0 = some (.beq 0) ∧
    decodeTableWord 16 0xBAF1 = some (.sbcIndY 0xBA#8) ∧
    decodeTableWord 16 0xBFF5 = some (.sbcZpX 0xBF#8) ∧
    decodeTableWord 16 0xC4F6 = some (.incZpX 0xC4#8) ∧
    decodeTableWord 8 0xF8 = some .sed ∧
    decodeTableWord 24 0xC5CEF9 = some (.sbcAbsY 0xC5CE#16) ∧
    decodeTableWord 24 0xC6D3FD = some (.sbcAbsX 0xC6D3#16) ∧
    decodeTableWord 24 0xC7D8FE = some (.incAbsX 0xC7D8#16) := by
  decide

/-- The table has one row for each of 151 different opcodes (30_encoding R126). -/
theorem test_table_size : opcodeTable.length = 151 ∧ (opcodeTable.map Row.opcode).Nodup := by
  constructor <;> decide +kernel

/-- 0x02, 0x1A and 0xFF have no entry (30_encoding R128, 90_conflicts C5). -/
theorem test_undefined_words :
    decodeTableWord 8 0x02 = none ∧ decodeTableWord 8 0x1A = none ∧ decodeTableWord 8 0xFF = none := by decide

/-- The fixed words, as the host will ask them: stored at the reset PC and run by the first step. -/
theorem test_withFetchWord :
    (match step (State.reset.withFetchWord 16 0x42A9) with | .next t => t.a == 0x42#8 && t.pc == 0x0002#16 | _ => false) = true ∧
    (match step (State.reset.withFetchWord 24 0x02008D) with | .next t => t.pc == 0x0003#16 | _ => false) = true := by decide

/-! ### Vectors of 95_test_vectors, sections 2 and 3 -/

/-- A memory with the listed bytes, zero elsewhere. -/
def memory (cells : List (Nat × Nat)) : Memory :=
  cells.foldl (fun m c => m.write (BitVec.ofNat 16 c.1) (BitVec.ofNat 8 c.2)) []

/-- The start state of the vectors: PC = 0x0200, A = X = Y = 0, SP = 0xFD, P = 0x30. -/
def at200 (cells : List (Nat × Nat)) : State :=
  { State.reset with pc := 0x0200#16, flags := Flags.ofByte 0x30#8, mem := memory cells }

/-- The step answers a next state with a property. -/
def Gives (s : State) (p : State → Bool) : Bool :=
  match step s with
  | .next t => p t
  | .fault _ => false
  | .refused _ => false

/-- V5, V4. -/
theorem test_adc :
    Gives { at200 [(0x0200, 0x69), (0x0201, 0x7F)] with a := 0x7F#8, flags := Flags.ofByte 0x31#8 }
      (fun t => t.a == 0xFF#8 && t.flags.view == 0xF0#8) = true ∧
    Gives { at200 [(0x0200, 0x69), (0x0201, 0x80)] with a := 0x80#8 }
      (fun t => t.a == 0x00#8 && t.flags.view == 0x73#8) = true := by
  decide

/-- V12, V13. -/
theorem test_sbc :
    Gives { at200 [(0x0200, 0xE9), (0x0201, 0xFF)] with a := 0x7F#8, flags := Flags.ofByte 0x31#8 }
      (fun t => t.a == 0x80#8 && t.flags.view == 0xF0#8) = true ∧
    Gives { at200 [(0x0200, 0xE9), (0x0201, 0x03)] with a := 0x05#8 }
      (fun t => t.a == 0x01#8 && t.flags.view == 0x31#8) = true := by
  decide

/-- V20, V17. -/
theorem test_cmp :
    Gives { at200 [(0x0200, 0xC9), (0x0201, 0x80)] with flags := Flags.ofByte 0x31#8 }
      (fun t => t.flags.view == 0xB0#8) = true ∧
    Gives { at200 [(0x0200, 0xC9), (0x0201, 0x40)] with a := 0x40#8 }
      (fun t => t.a == 0x40#8 && t.flags.view == 0x33#8) = true := by
  decide

/-- V22. -/
theorem test_cpx :
    Gives { at200 [(0x0200, 0xE0), (0x0201, 0x00)] with x := 0xFF#8 }
      (fun t => t.flags.view == 0xB1#8) = true := by
  decide

/-- V23. -/
theorem test_cpy :
    Gives { at200 [(0x0200, 0xC0), (0x0201, 0xFF)] with flags := Flags.ofByte 0x31#8 }
      (fun t => t.flags.view == 0x30#8) = true := by
  decide

/-- V24, V26. -/
theorem test_bit :
    Gives { at200 [(0x0200, 0x24), (0x0201, 0x10), (0x0010, 0xC0)] with a := 0x01#8, flags := Flags.ofByte 0x33#8 }
      (fun t => t.flags.view == 0xF3#8) = true ∧
    Gives { at200 [(0x0200, 0x24), (0x0201, 0x10), (0x0010, 0x0F)] with a := 0x0F#8, flags := Flags.ofByte 0xF2#8 }
      (fun t => t.flags.view == 0x30#8) = true := by
  decide

/-- V28, V35. -/
theorem test_asl :
    Gives { at200 [(0x0200, 0x0A)] with a := 0x41#8, flags := Flags.ofByte 0x31#8 }
      (fun t => t.a == 0x82#8 && t.flags.view == 0xB0#8) = true ∧
    Gives (at200 [(0x0200, 0x06), (0x0201, 0x10), (0x0010, 0x81)])
      (fun t => t.flags.view == 0x31#8 && t.mem.read 0x0010#16 == 0x02#8) = true := by
  decide

/-- V29, V30. -/
theorem test_lsr :
    Gives { at200 [(0x0200, 0x4A)] with a := 0x01#8, flags := Flags.ofByte 0xB0#8 }
      (fun t => t.a == 0x00#8 && t.flags.view == 0x33#8) = true ∧
    Gives { at200 [(0x0200, 0x4A)] with a := 0xFE#8, flags := Flags.ofByte 0x31#8 }
      (fun t => t.a == 0x7F#8 && t.flags.view == 0x30#8) = true := by
  decide

/-- V32, V31. -/
theorem test_rol :
    Gives { at200 [(0x0200, 0x2A)] with a := 0x40#8, flags := Flags.ofByte 0x31#8 }
      (fun t => t.a == 0x81#8 && t.flags.view == 0xB0#8) = true ∧
    Gives { at200 [(0x0200, 0x2A)] with a := 0x80#8 }
      (fun t => t.a == 0x00#8 && t.flags.view == 0x33#8) = true := by
  decide

/-- V34, V36. -/
theorem test_ror :
    Gives { at200 [(0x0200, 0x6A)] with flags := Flags.ofByte 0x31#8 }
      (fun t => t.a == 0x80#8 && t.flags.view == 0xB0#8) = true ∧
    Gives { at200 [(0x0200, 0x7E), (0x0201, 0xFF), (0x0202, 0x30), (0x3100, 0x02)] with x := 0x01#8, flags := Flags.ofByte 0x31#8 }
      (fun t => t.flags.view == 0xB0#8 && t.mem.read 0x3100#16 == 0x81#8) = true := by
  decide

/-- V37. -/
theorem test_and :
    Gives { at200 [(0x0200, 0x29), (0x0201, 0x0F)] with a := 0xF0#8 }
      (fun t => t.a == 0x00#8 && t.flags.view == 0x32#8) = true := by
  decide

/-- V38. -/
theorem test_ora :
    Gives (at200 [(0x0200, 0x09), (0x0201, 0x80)])
      (fun t => t.a == 0x80#8 && t.flags.view == 0xB0#8) = true := by
  decide

/-- V40. -/
theorem test_eor :
    Gives { at200 [(0x0200, 0x49), (0x0201, 0xF0)] with a := 0x0F#8 }
      (fun t => t.a == 0xFF#8 && t.flags.view == 0xB0#8) = true := by
  decide

/-- V42. -/
theorem test_inc :
    Gives (at200 [(0x0200, 0xE6), (0x0201, 0x10), (0x0010, 0x7F)])
      (fun t => t.flags.view == 0xB0#8 && t.mem.read 0x0010#16 == 0x80#8) = true := by
  decide

/-- V43. -/
theorem test_dec :
    Gives { at200 [(0x0200, 0xC6), (0x0201, 0x10), (0x0010, 0x00)] with flags := Flags.ofByte 0x31#8 }
      (fun t => t.flags.view == 0xB1#8 && t.mem.read 0x0010#16 == 0xFF#8) = true := by
  decide

/-- V45. -/
theorem test_inx :
    Gives { at200 [(0x0200, 0xE8)] with x := 0xFF#8 }
      (fun t => t.x == 0x00#8 && t.flags.view == 0x32#8) = true := by
  decide

/-- V46. -/
theorem test_dex :
    Gives (at200 [(0x0200, 0xCA)])
      (fun t => t.x == 0xFF#8 && t.flags.view == 0xB0#8) = true := by
  decide

/-- V47. -/
theorem test_iny :
    Gives { at200 [(0x0200, 0xC8)] with y := 0x7F#8 }
      (fun t => t.y == 0x80#8 && t.flags.view == 0xB0#8) = true := by
  decide

/-- V48. -/
theorem test_dey :
    Gives { at200 [(0x0200, 0x88)] with y := 0x80#8 }
      (fun t => t.y == 0x7F#8 && t.flags.view == 0x30#8) = true := by
  decide

/-- V65, V66. -/
theorem test_lda :
    Gives { at200 [(0x0200, 0xA1), (0x0201, 0xFE), (0x00FF, 0x34), (0x0000, 0x12), (0x1234, 0x56)] with x := 0x01#8 }
      (fun t => t.a == 0x56#8) = true ∧
    Gives { at200 [(0x0200, 0xB1), (0x0201, 0xFF), (0x00FF, 0xF8), (0x0000, 0x12), (0x1308, 0x9A)] with y := 0x10#8 }
      (fun t => t.a == 0x9A#8 && t.flags.view == 0xB0#8) = true := by
  decide

/-- V51. -/
theorem test_ldx :
    Gives { at200 [(0x0200, 0xB6), (0x0201, 0xF0), (0x0010, 0x99)] with y := 0x20#8 }
      (fun t => t.x == 0x99#8 && t.flags.view == 0xB0#8) = true := by
  decide

/-- V52. -/
theorem test_ldy :
    Gives { at200 [(0x0200, 0xBC), (0x0201, 0xFF), (0x0202, 0x12), (0x1300, 0x00)] with x := 0x01#8 }
      (fun t => t.y == 0x00#8 && t.flags.view == 0x32#8) = true := by
  decide

/-- V53. -/
theorem test_sta :
    Gives { at200 [(0x0200, 0x95), (0x0201, 0x80)] with a := 0x5A#8, x := 0xFF#8, flags := Flags.ofByte 0xB2#8 }
      (fun t => t.mem.read 0x007F#16 == 0x5A#8) = true := by
  decide

/-- V54. -/
theorem test_stx :
    Gives { at200 [(0x0200, 0x8E), (0x0201, 0x34), (0x0202, 0x12)] with x := 0x77#8 }
      (fun t => t.mem.read 0x1234#16 == 0x77#8 && t.pc == 0x0203#16) = true := by
  decide

/-- V55. -/
theorem test_sty :
    Gives { at200 [(0x0200, 0x94), (0x0201, 0xFF)] with y := 0x11#8, x := 0x02#8 }
      (fun t => t.mem.read 0x0001#16 == 0x11#8) = true := by
  decide

/-- V56. -/
theorem test_tax :
    Gives { at200 [(0x0200, 0xAA)] with x := 0x44#8 }
      (fun t => t.x == 0x00#8 && t.flags.view == 0x32#8) = true := by
  decide

/-- V57. -/
theorem test_tay :
    Gives { at200 [(0x0200, 0xA8)] with a := 0x80#8 }
      (fun t => t.y == 0x80#8 && t.flags.view == 0xB0#8) = true := by
  decide

/-- V58. -/
theorem test_txa :
    Gives { at200 [(0x0200, 0x8A)] with x := 0x01#8, a := 0x80#8, flags := Flags.ofByte 0xB0#8 }
      (fun t => t.a == 0x01#8 && t.flags.view == 0x30#8) = true := by
  decide

/-- V59. -/
theorem test_tya :
    Gives { at200 [(0x0200, 0x98)] with a := 0x12#8 }
      (fun t => t.a == 0x00#8 && t.flags.view == 0x32#8) = true := by
  decide

/-- V60. -/
theorem test_tsx :
    Gives { at200 [(0x0200, 0xBA)] with sp := 0x00#8 }
      (fun t => t.x == 0x00#8 && t.flags.view == 0x32#8) = true := by
  decide

/-- V61. -/
theorem test_txs :
    Gives (at200 [(0x0200, 0x9A)])
      (fun t => t.sp == 0x00#8 && t.flags.view == 0x30#8) = true := by
  decide

/-- V68, V70. -/
theorem test_jmp :
    Gives (at200 [(0x0200, 0x6C), (0x0201, 0xFF), (0x0202, 0x30), (0x30FF, 0x34), (0x3000, 0x12), (0x3100, 0x56)])
      (fun t => t.pc == 0x1234#16) = true ∧
    Gives (at200 [(0x0200, 0x4C), (0x0201, 0x00), (0x0202, 0xC0)])
      (fun t => t.pc == 0xC000#16) = true := by
  decide

/-- V71, V72. -/
theorem test_bne :
    Gives (at200 [(0x0200, 0xD0), (0x0201, 0x10)])
      (fun t => t.pc == 0x0212#16) = true ∧
    Gives { at200 [(0x0200, 0xD0), (0x0201, 0x10)] with flags := Flags.ofByte 0x32#8 }
      (fun t => t.pc == 0x0202#16) = true := by
  decide

/-- V73. -/
theorem test_beq :
    Gives { at200 [(0x0200, 0xF0), (0x0201, 0xFE)] with flags := Flags.ofByte 0x32#8 }
      (fun t => t.pc == 0x0200#16) = true := by
  decide

/-- V74. -/
theorem test_bmi :
    Gives { at200 [(0x0200, 0x30), (0x0201, 0x80)] with flags := Flags.ofByte 0xB0#8 }
      (fun t => t.pc == 0x0182#16) = true := by
  decide

/-- V75. -/
theorem test_bpl :
    Gives (at200 [(0x0200, 0x10), (0x0201, 0x7F)])
      (fun t => t.pc == 0x0281#16) = true := by
  decide

/-- V80. -/
theorem test_bcc :
    Gives { at200 [(0xFFF0, 0x90), (0xFFF1, 0x7F)] with pc := 0xFFF0#16 }
      (fun t => t.pc == 0x0071#16) = true := by
  decide

/-- V77. -/
theorem test_bcs :
    Gives (at200 [(0x0200, 0xB0), (0x0201, 0x05)])
      (fun t => t.pc == 0x0202#16) = true := by
  decide

/-- V78. -/
theorem test_bvc :
    Gives (at200 [(0x0200, 0x50), (0x0201, 0x05)])
      (fun t => t.pc == 0x0207#16) = true := by
  decide

/-- V79. -/
theorem test_bvs :
    Gives { at200 [(0x0200, 0x70), (0x0201, 0x05)] with flags := Flags.ofByte 0x70#8 }
      (fun t => t.pc == 0x0207#16) = true := by
  decide

/-- V82. -/
theorem test_pha :
    Gives { at200 [(0x0200, 0x48)] with a := 0x42#8, sp := 0x00#8 }
      (fun t => t.sp == 0xFF#8 && t.mem.read 0x0100#16 == 0x42#8) = true := by
  decide

/-- V84. -/
theorem test_php :
    Gives (at200 [(0x0200, 0x08)])
      (fun t => t.mem.read 0x01FD#16 == 0x30#8) = true := by
  decide

/-- V86. -/
theorem test_pla :
    Gives { at200 [(0x0200, 0x68), (0x0100, 0x00)] with sp := 0xFF#8 }
      (fun t => t.a == 0x00#8 && t.flags.view == 0x32#8 && t.sp == 0x00#8) = true := by
  decide

/-- V87, V89. -/
theorem test_plp :
    Gives { at200 [(0x0200, 0x28), (0x01FD, 0x00)] with sp := 0xFC#8, flags := Flags.ofByte 0xFF#8 }
      (fun t => t.flags.view == 0x30#8 && t.sp == 0xFD#8) = true ∧
    Gives { at200 [(0x0200, 0x28), (0x01FD, 0xC3)] with sp := 0xFC#8 }
      (fun t => t.flags.view == 0xF3#8) = true := by
  decide

/-- V91. -/
theorem test_jsr :
    Gives { at200 [(0x0200, 0x20), (0x0201, 0x00), (0x0202, 0xC0)] with sp := 0x00#8 }
      (fun t => t.sp == 0xFE#8 && t.mem.read 0x0100#16 == 0x02#8 && t.mem.read 0x01FF#16 == 0x02#8 && t.pc == 0xC000#16) = true := by
  decide

/-- V93. -/
theorem test_rts :
    Gives { at200 [(0x0200, 0x60), (0x01FC, 0xFF), (0x01FD, 0xFF)] with sp := 0xFB#8 }
      (fun t => t.pc == 0x0000#16) = true := by
  decide

/-- V94. -/
theorem test_rti :
    Gives { at200 [(0x0200, 0x40), (0x01FB, 0xC3), (0x01FC, 0x34), (0x01FD, 0x12)] with sp := 0xFA#8, flags := Flags.ofByte 0x34#8 }
      (fun t => t.flags.view == 0xF3#8 && t.sp == 0xFD#8 && t.pc == 0x1234#16) = true := by
  decide

/-- V95. -/
theorem test_brk :
    Gives (at200 [(0x0200, 0x00), (0x0201, 0xEE), (0xFFFE, 0x00), (0xFFFF, 0x80)])
      (fun t => t.sp == 0xFA#8 && t.flags.view == 0x34#8 && t.mem.read 0x01FD#16 == 0x02#8 && t.mem.read 0x01FC#16 == 0x02#8 && t.mem.read 0x01FB#16 == 0x30#8 && t.pc == 0x8000#16) = true := by
  decide

/-- V96. -/
theorem test_clc :
    Gives { at200 [(0x0200, 0x18)] with flags := Flags.ofByte 0x31#8 }
      (fun t => t.flags.view == 0x30#8) = true := by
  decide

/-- V97. -/
theorem test_sec :
    Gives (at200 [(0x0200, 0x38)])
      (fun t => t.flags.view == 0x31#8) = true := by
  decide

/-- V98. -/
theorem test_cli :
    Gives { at200 [(0x0200, 0x58)] with flags := Flags.ofByte 0x34#8 }
      (fun t => t.flags.view == 0x30#8) = true := by
  decide

/-- V99. -/
theorem test_sei :
    Gives (at200 [(0x0200, 0x78)])
      (fun t => t.flags.view == 0x34#8) = true := by
  decide

/-- V100. -/
theorem test_cld :
    Gives { at200 [(0x0200, 0xD8)] with flags := Flags.ofByte 0x38#8 }
      (fun t => t.flags.view == 0x30#8) = true := by
  decide

/-- V101. -/
theorem test_sed :
    Gives (at200 [(0x0200, 0xF8)])
      (fun t => t.flags.view == 0x38#8) = true := by
  decide

/-- V102. -/
theorem test_clv :
    Gives { at200 [(0x0200, 0xB8)] with flags := Flags.ofByte 0x70#8 }
      (fun t => t.flags.view == 0x30#8) = true := by
  decide

/-- V103. -/
theorem test_nop :
    Gives (at200 [(0x0200, 0xEA)])
      (fun t => t.pc == 0x0201#16) = true := by
  decide

/-- V104, V105: the fault with its record, PC at the opcode, the core halted. -/
theorem test_unknown_opcode :
    (match step (at200 [(0x0200, 0x02)]) with
      | .fault (.unknownOpcode op a t) => op == 0x02#8 && a == 0x0200#16 && t.halted && t.pc == 0x0200#16
      | _ => false) = true ∧
    (match step (at200 [(0x0200, 0xFF)]) with
      | .fault (.unknownOpcode op a t) => op == 0xFF#8 && a == 0x0200#16 && t.mem == [(0x0200, 0xFF#8)]
      | _ => false) = true := by decide

/-- V107: an `nmi` event while halted: no step. -/
theorem test_halted :
    (match step { at200 [(0x0200, 0xEA)] with halted := true, inputs := [⟨false, false, true, true⟩] } with
      | .fault (.halted t) => t.pc == 0x0200#16 && t.halted
      | _ => false) = true := by decide

/-- V108 and V109: an IRQ taken, and an IRQ with I = 1. -/
theorem test_irq :
    Gives { at200 [(0xFFFE, 0x00), (0xFFFF, 0x90)] with pc := 0x0203#16, inputs := [⟨false, false, false, true⟩] }
      (fun t => t.mem.read 0x01FD#16 == 0x02#8 && t.mem.read 0x01FC#16 == 0x03#8 && t.mem.read 0x01FB#16 == 0x20#8 &&
        t.sp == 0xFA#8 && t.flags.view == 0x34#8 && t.pc == 0x9000#16) = true ∧
    Gives { at200 [(0x0200, 0xEA)] with flags := Flags.ofByte 0x34#8, inputs := [⟨false, false, false, true⟩] }
      (fun t => t.pc == 0x0201#16 && t.sp == 0xFD#8) = true := by decide

/-- V110 and V111: an NMI with I = 1, and an NMI before an IRQ. -/
theorem test_nmi :
    Gives { at200 [(0xFFFB, 0xA0)] with
        pc := 0x8123#16, flags := Flags.ofByte 0xF7#8, sp := 0x02#8, inputs := [⟨false, false, true, false⟩] }
      (fun t => t.mem.read 0x0102#16 == 0x81#8 && t.mem.read 0x0101#16 == 0x23#8 && t.mem.read 0x0100#16 == 0xE7#8 &&
        t.sp == 0xFF#8 && t.flags.view == 0xF7#8 && t.pc == 0xA000#16 && t.nmiPending == false) = true ∧
    Gives { at200 [(0xFFFB, 0xA0), (0xFFFF, 0x90)] with inputs := [⟨false, false, true, true⟩] }
      (fun t => t.pc == 0xA000#16 && t.flags.i) = true := by decide

/-- V112 and V113: reset, no platform action. -/
theorem test_reset :
    let t := resetWith [] (fun _ _ => 0x00#8) { at200 [(0xFFFD, 0x80)] with a := 0x05#8, x := 0x06#8, flags := Flags.ofByte 0xF3#8 }
    let u := resetWith [] (fun _ _ => 0x00#8) { at200 [] with sp := 0x01#8 }
    t.a = 0x05#8 ∧ t.x = 0x06#8 ∧ t.flags.view = 0xF7#8 ∧ t.sp = 0xFA#8 ∧ t.pc = 0x8000#16 ∧ t.mem = [(0xFFFD, 0x80#8)] ∧
      u.sp = 0xFE#8 := by decide

/-- V114: power-up, nothing cleared. -/
theorem test_power_up :
    let t := powerUpWith none { at200 [(0xFFFC, 0x34), (0xFFFD, 0x12)] with a := 0x09#8 }
    t.a = 0x00#8 ∧ t.x = 0x00#8 ∧ t.y = 0x00#8 ∧ t.sp = 0xFD#8 ∧ t.flags.view = 0x34#8 ∧ t.pc = 0x1234#16 := by decide

/-- V115: reset ends the halt. -/
theorem test_reset_after_fault :
    let t := resetWith [] (fun _ _ => 0x00#8) (haltOnUnknownOpcode 0x02#8 (at200 [(0x0200, 0x02), (0xFFFD, 0x80)]))
    t.halted = false ∧ t.faultRecord = none ∧ t.pc = 0x8000#16 := by decide

/-- The reset state is as 10_state R59 says: A = X = Y = 0, SP = 0xFD, P = 0x34, not halted. -/
theorem test_reset_state :
    State.reset.registerView = ⟨0x00#8, 0x00#8, 0x00#8, 0xFD#8, 0x0000#16, 0x34#8⟩ ∧ State.reset.halted = false ∧
      State.reset.nmiPending = false ∧ State.reset.mem.wf = true := by decide

/-- H3: a load that wraps past 0xFFFF. -/
theorem test_load :
    let h := Harness.load ⟨at200 [], ⟨0, 0⟩, 0⟩ 0xFFFE#16 [0xAA#8, 0xBB#8, 0xCC#8]
    h.core.mem = [(0x0000, 0xCC#8), (0xFFFE, 0xAA#8), (0xFFFF, 0xBB#8)] ∧ h.segment = ⟨0xFFFE, 0x10001⟩ := by decide

/-- V62 costs 4 cycles and 1 for the page crossing; V36 costs 7 and no penalty (70_reset_and_hazards R462, R473). -/
theorem test_charge :
    stepCharge defaultCycleCost { at200 [(0x0200, 0xBD), (0x0201, 0xFF), (0x0202, 0x12)] with x := 0x01#8 } = 5 ∧
    stepCharge defaultCycleCost { at200 [(0x0200, 0x7E), (0x0201, 0xFF), (0x0202, 0x30)] with x := 0x01#8 } = 7 := by decide

/-- H2: no budget, no step. -/
theorem test_no_budget :
    let h : Harness := ⟨at200 [(0x0200, 0xEA)], ⟨0x0200, 0x0201⟩, 0⟩
    Harness.run defaultCycleCost 10 0 h = .budgetExhausted h := by decide

/-- P9's faulting step: the run ends in failure, nothing is charged, and the core is left halted with PC at the opcode. -/
theorem test_harness_fault :
    (match Harness.run defaultCycleCost 10 100 ⟨at200 [(0x0200, 0x02)], ⟨0x0200, 0x0201⟩, 2⟩ with
      | .fault _ h => h.core.halted && h.core.pc == 0x0200#16 && h.consumed == 2
      | _ => false) = true := by decide

/-- A halted core is never a final successful state (60_exceptions R403): not with PC outside the segment, not without budget. -/
theorem test_harness_halted :
    let s : State := { at200 [(0x0200, 0xEA)] with halted := true, faultRecord := some (.unknownOpcode 0x02#8 0x0200#16) }
    Harness.run defaultCycleCost 10 100 ⟨s, ⟨0x0300, 0x0301⟩, 0⟩ = .fault (.halted s) ⟨s, ⟨0x0300, 0x0301⟩, 0⟩ ∧
    Harness.run defaultCycleCost 10 0 ⟨s, ⟨0x0200, 0x0201⟩, 0⟩ = .fault (.halted s) ⟨s, ⟨0x0200, 0x0201⟩, 0⟩ := by decide

/-- 20_memory R92 for ($nn),Y and for a read-modify-write instruction: fetch, pointer low and high, data; one read and one write. -/
theorem test_bus_order :
    stepAccesses { at200 [(0x0200, 0xB1), (0x0201, 0xFF)] with y := 0x10#8 } =
      [.read 0x0200#16, .read 0x0201#16, .read 0x00FF#16, .read 0x0000#16, .read 0x0010#16] ∧
    stepAccesses (at200 [(0x0200, 0xE6), (0x0201, 0x10)]) =
      [.read 0x0200#16, .read 0x0201#16, .read 0x0010#16, .write 0x0010#16 0x01#8] := by decide

/-! ### Witnesses: for each statement with hypotheses, a state and operands that meet them together -/

section Witnesses

/-- A quiet boundary with `irq` low. -/
def quietLow : State := at200 [(0x0200, 0xA9), (0x0201, 0x42)]

/-- A quiet boundary with `irq` high and masked. -/
def quietMasked : State := { quietLow with flags := powerUpFlags, inputs := [⟨false, false, false, true⟩] }

/-- A quiet boundary before an opcode without an entry. -/
def beforeUndefined (op : Nat) : State := at200 [(0x0200, op)]

/-- A boundary at which the environment presents `p`. -/
def presented (p : Inputs) (s : State) : State := { s with inputs := [p] }

/-- A halted core. -/
def haltedCore : State := { quietLow with halted := true, faultRecord := some (.unknownOpcode 0x02#8 0x0200#16) }

theorem witness_UndefinedOpcodesAreRejected :
    0x02#8 ∈ Claims.undefinedOpcodes ∧ 0xFF#8 ∈ Claims.undefinedOpcodes ∧ 0x00#8 ∉ Claims.undefinedOpcodes ∧
      0xFE#8 ∉ Claims.undefinedOpcodes := by decide

theorem witness_DecodeOfEncodeIsTheInstruction :
    (Instr.bne (-128)).wellFormed = true ∧ (Instr.bne 127).wellFormed = true ∧ (Instr.jmpInd 0xFFFF#16).wellFormed = true := by
  decide

theorem witness_EncodeOfDecodeIsTheBytes :
    decode [0xD0#8, 0x80#8, 0x00#8] = .ok (.bne (-128), [0x00#8]) ∧ decode [0x4C#8, 0x00#8, 0xC0#8] = .ok (.jmpAbs 0xC000#16, []) :=
  ⟨rfl, rfl⟩

theorem witness_InstructionLengthIsFixedByMode :
    (encode (.ldaAbs 0x1234#16)).head? = (encode (.ldaAbs 0x0000#16)).head? ∧ Instr.ldaAbs 0x1234#16 ≠ .ldaAbs 0x0000#16 := by
  decide

theorem witness_StepRunsTheDecodedInstruction :
    Claims.Quiet quietLow ∧ Claims.Quiet quietMasked ∧
      decode [quietLow.mem.read quietLow.pc, quietLow.mem.read (Claims.plus quietLow.pc 1),
        quietLow.mem.read (Claims.plus quietLow.pc 2)] = .ok (.ldaImm 0x42#8, [0x00#8]) :=
  ⟨by unfold Claims.Quiet; decide, by unfold Claims.Quiet; decide, rfl⟩

theorem witness_UndefinedOpcodeFaults :
    Claims.Quiet (beforeUndefined 0x02) ∧ (beforeUndefined 0x02).mem.read (beforeUndefined 0x02).pc ∈ Claims.undefinedOpcodes ∧
      Claims.Quiet (beforeUndefined 0xFF) ∧
      (beforeUndefined 0xFF).mem.read (beforeUndefined 0xFF).pc ∈ Claims.undefinedOpcodes := by
  unfold Claims.Quiet
  decide

/-- One state for each clause: power-up before reset, reset before a halted core, the halt before NMI, NMI before IRQ, IRQ, and the
instruction with `irq` low and with `irq` masked. -/
theorem witness_BoundaryPollOrder :
    (presented ⟨true, true, true, true⟩ haltedCore).nextInputs.powerOn = true ∧
    (presented ⟨false, true, true, true⟩ haltedCore).nextInputs = ⟨false, true, true, true⟩ ∧
    (presented ⟨false, false, true, true⟩ haltedCore).halted = true ∧
    (presented ⟨false, false, true, true⟩ quietLow).latch.nmiPending = true ∧
    (presented ⟨false, false, false, true⟩ quietLow).nextInputs.irq = true ∧ quietLow.flags.i = false ∧
    quietLow.nextInputs.irq = false ∧ (presented ⟨false, false, false, true⟩ quietMasked).flags.i = true := by decide

theorem witness_HaltedCoreOnlyLeavesByReset :
    haltedCore.halted = true ∧ haltedCore.nextInputs.powerOn = false ∧
      (∃ t, step (presented ⟨false, true, false, false⟩ haltedCore) = .next t) ∧
      (∃ t, step (presented ⟨true, false, false, false⟩ haltedCore) = .next t) :=
  ⟨rfl, rfl, ⟨_, rfl⟩, ⟨_, rfl⟩⟩

theorem witness_NmiEntry :
    let arriving := presented ⟨false, false, true, false⟩ quietLow
    let pending : State := { quietLow with nmiPending := true }
    arriving.nextInputs = ⟨false, false, true, false⟩ ∧ arriving.halted = false ∧ arriving.nmiPending = false ∧
      pending.nextInputs = Inputs.quiet ∧ pending.halted = false ∧ pending.nmiPending = true := by decide

theorem witness_IrqEntry :
    let s := presented ⟨false, false, false, true⟩ quietLow
    s.nextInputs = ⟨false, false, false, true⟩ ∧ s.halted = false ∧ s.nmiPending = false ∧ s.flags.i = false := by decide

/-- Both ends of a range are inside it, and the addresses next to it are not; the whole memory is a range too. -/
theorem witness_PowerUpSequence :
    let m := memory [(0x01FF, 0x11), (0x0200, 0x22), (0x0300, 0x33), (0x0301, 0x44)]
    let m' := m.zeroFill ⟨0x0200#16, 0x0300#16⟩
    m'.read 0x01FF#16 = 0x11#8 ∧ m'.read 0x0200#16 = 0x00#8 ∧ m'.read 0x0300#16 = 0x00#8 ∧ m'.read 0x0301#16 = 0x44#8 ∧
      m.zeroFill ⟨0x0000#16, 0xFFFF#16⟩ = [] := by decide

theorem witness_ResetSequence :
    (0x4015#16 : Word) ∈ [(0x4015#16 : Word)] ∧ (0x4014#16 : Word) ∉ [(0x4015#16 : Word)] ∧
      (resetWith [0x4015#16] (fun _ _ => 0x07#8) quietLow).mem.read 0x4015#16 = 0x07#8 := by decide

theorem witness_ResetStateIsPowerUpOfZeroMemory :
    ({ quietLow with mem := [] } : State).mem = [] ∧ ({ quietLow with mem := [] } : State).inputs = [] := ⟨rfl, rfl⟩

theorem witness_StepKeepsTheInvariant :
    quietLow.Inv ∧ (∃ t, step quietLow = .next t) ∧ (beforeUndefined 0x02).Inv ∧
      (∃ t, step (beforeUndefined 0x02) = .fault (.unknownOpcode 0x02#8 0x0200#16 t)) ∧ haltedCore.Inv ∧
      (∃ t, step haltedCore = .fault (.halted t)) :=
  ⟨⟨by decide, by decide⟩, ⟨_, rfl⟩, ⟨by decide, by decide⟩, ⟨_, rfl⟩, ⟨by decide, by decide⟩, ⟨_, rfl⟩⟩

theorem witness_ReadReturnsLastWrite : (0x0001#16 : Word) ≠ 0x0000#16 ∧ Memory.wf (memory [(0xFFFF, 0x01)]) = true := by decide

theorem witness_CanonicalMemoriesAreEqualByReads :
    Memory.wf [(0x0000, 0x01#8), (0xFFFF, 0x02#8)] = true ∧
      ∀ a : Word, Memory.read [(0x0000, 0x01#8), (0xFFFF, 0x02#8)] a =
        Memory.read (Memory.write [(0xFFFF, 0x02#8)] 0x0000#16 0x01#8) a :=
  ⟨by decide, fun _ => rfl⟩

theorem witness_EveryInstructionCompletes :
    (∃ t, step (beforeUndefined 0xFF) = .fault (.unknownOpcode 0xFF#8 0x0200#16 t)) ∧ (∃ t, step haltedCore = .fault (.halted t)) :=
  ⟨⟨_, rfl⟩, ⟨_, rfl⟩⟩

theorem witness_InstructionsWriteOnlyTheirFlags :
    Claims.Flag.c ∉ Claims.flagsWritten (Instr.ldaImm 0x00#8).mnemonic ∧ Claims.Flag.i ∉ Claims.flagsWritten Instr.pla.mnemonic := by
  simp [Claims.flagsWritten, Instr.mnemonic]

theorem witness_InstructionsWriteOnlyTheirRegisters :
    ¬ Claims.writesA (.aslZp 0x10#8) ∧ ¬ Claims.writesX .txs ∧ ¬ Claims.writesY .tya ∧ ¬ Claims.writesSp .tsx ∧
      ¬ Claims.writesPc .nop := by
  simp [Claims.writesA, Claims.writesX, Claims.writesY, Claims.writesSp, Claims.writesPc, Instr.mnemonic, Instr.mode,
    Instr.operand, Operand.mode]

theorem witness_NonStoringFormsKeepMemory : ¬ Claims.writesMemory .aslAcc ∧ ¬ Claims.writesMemory (.cmpAbs 0x0000#16) := by
  simp [Claims.writesMemory, Instr.mnemonic, Instr.mode, Instr.operand, Operand.mode]

theorem witness_DecimalModeChangesNoResult :
    (Instr.adcImm 0x01#8).mnemonic ∉ [Mnemonic.php, .brk, .plp, .rti, .sed, .cld] := by decide

theorem witness_SubroutineReturnsAfterItsCall : ∃ t, exec (.jsr 0xC000#16) quietLow = .next t := ⟨_, rfl⟩

theorem witness_StepMemoryIsItsBusWrites :
    quietLow.nextInputs.powerOn = false ∧ quietLow.nextInputs.reset = false ∧ (∃ t, step quietLow = .next t) ∧
      (beforeUndefined 0x02).nextInputs = Inputs.quiet ∧ (∃ f, step (beforeUndefined 0x02) = .fault f) :=
  ⟨rfl, rfl, ⟨_, rfl⟩, rfl, ⟨_, rfl⟩⟩

/-- A store of an opcode without an entry at the next PC, of the two operand bytes after it, and a push into the code of page 1. -/
theorem witness_StoreIsSeenByTheNextFetch :
    let s : State := { at200 [(0x0200, 0xAD), (0x0201, 0x42)] with a := 0x12#8 }
    let u : State := { s with a := 0x02#8 }
    let p : State := { at200 [(0x01FC, 0xA9)] with a := 0x12#8, pc := 0x01FC#16 }
    (∃ t, exec (.staAbs 0x0200#16) u = .next t ∧ Claims.Quiet t ∧
      Claims.byteAfter (.staAbs 0x0200#16) u (Claims.plus t.pc 0) ∈ Claims.undefinedOpcodes) ∧
    (∃ t, exec (.incAbs 0x0201#16) s = .next t ∧ Claims.Quiet t ∧
      decode ((List.range 3).map fun k => Claims.byteAfter (.incAbs 0x0201#16) s (Claims.plus t.pc k)) =
        .ok (.ldaAbs 0x0043#16, [])) ∧
    (∃ t, exec (.staAbs 0x0202#16) s = .next t ∧ Claims.Quiet t ∧
      decode ((List.range 3).map fun k => Claims.byteAfter (.staAbs 0x0202#16) s (Claims.plus t.pc k)) =
        .ok (.ldaAbs 0x1242#16, [])) ∧
    (∃ t, exec .pha p = .next t ∧ Claims.Quiet t ∧
      decode ((List.range 3).map fun k => Claims.byteAfter .pha p (Claims.plus t.pc k)) = .ok (.ldaImm 0x12#8, [0x00#8])) :=
  ⟨⟨_, rfl, by unfold Claims.Quiet; decide, by decide⟩, ⟨_, rfl, by unfold Claims.Quiet; decide, rfl⟩,
    ⟨_, rfl, by unfold Claims.Quiet; decide, rfl⟩, ⟨_, rfl, by unfold Claims.Quiet; decide, rfl⟩⟩

/-- An instruction at PC whose operand crosses a page, a branch at PC, a load one byte longer than the memory, whose byte 1 is the
first that stays, and an address outside a load. -/
theorem witness_HarnessPenaltyAndLoad :
    decode (at200 [(0x0200, 0xBD), (0x0201, 0xFF), (0x0202, 0x12)]).fetchBytes = .ok (.ldaAbsX 0x12FF#16, []) ∧
    (resolve (.absoluteX 0x12FF#16) { at200 [] with x := 0x01#8 }).crossed = true ∧
    decode (at200 [(0x0200, 0xD0), (0x0201, 0x80)]).fetchBytes = .ok (.bne (-128), [0x00#8]) ∧
    (List.replicate 65537 (0x00#8 : Byte)).length ≤ 1 + 65536 ∧
    (∀ k, k < [(0x00#8 : Byte)].length → (0x0001#16 : Word) ≠ Claims.plus 0x0000#16 k) :=
  ⟨rfl, by decide, rfl, le_of_eq List.length_replicate, by decide⟩

end Witnesses

end Sys2Proof.Tests
end

section
/-! SUPPORT. Which flags the flag operations keep, and that no instruction writes a flag its rule does not name (10_state R55). -/

namespace Sys2Proof.Claims

open Sys2Proof.Machine

/-! ### One frame rule per flag operation of the meanings -/

section FlagFrame

variable {f : Flag} (p : Flags) (b b' : Bool) (v a m : Byte)

theorem mem_allFlags (f : Flag) : f ∈ [Flag.n, .v, .d, .i, .z, .c] := by
  cases f <;> simp

theorem of_withC (h : f ∉ [Flag.c]) : f.of { p with c := b } = f.of p := by
  cases f with
  | c => simp at h
  | n | v | d | i | z => rfl

theorem of_withI (h : f ∉ [Flag.i]) : f.of { p with i := b } = f.of p := by
  cases f with
  | i => simp at h
  | n | v | d | z | c => rfl

theorem of_withD (h : f ∉ [Flag.d]) : f.of { p with d := b } = f.of p := by
  cases f with
  | d => simp at h
  | n | v | i | z | c => rfl

theorem of_withV (h : f ∉ [Flag.v]) : f.of { p with v := b } = f.of p := by
  cases f with
  | v => simp at h
  | n | d | i | z | c => rfl

theorem of_setNZ (h : f ∉ [Flag.n, .z]) : f.of (p.setNZ v) = f.of p := by
  cases f with
  | n | z => simp at h
  | v | d | i | c => rfl

theorem of_compare (h : f ∉ [Flag.n, .z, .c]) : f.of (p.compare a m) = f.of p := by
  cases f with
  | n | z | c => simp at h
  | v | d | i => rfl

theorem of_bitTest (h : f ∉ [Flag.n, .v, .z]) : f.of (p.bitTest a m) = f.of p := by
  cases f with
  | n | v | z => simp at h
  | d | i | c => rfl

/-- The flags of the shifts and rotates (44_logical_shift R283 to R286). -/
theorem of_setNZ_withCarry (h : f ∉ [Flag.n, .z, .c]) : f.of (Flags.setNZ { p with c := b } v) = f.of p := by
  cases f with
  | n | z | c => simp at h
  | v | d | i => rfl

/-- The flags of ADC and SBC (45_arithmetic_compare R300, R301). -/
theorem of_setNZ_withCarryOverflow (h : f ∉ [Flag.n, .v, .z, .c]) :
    f.of (Flags.setNZ { p with c := b, v := b' } v) = f.of p := by
  cases f with
  | n | v | z | c => simp at h
  | d | i => rfl

end FlagFrame

/-! ### Every instruction -/

/-- Settles O47: each instruction sets its flags by one flag operation, whose frame rule is the claim. -/
theorem instructionsWriteOnlyTheirFlags : Obligations.InstructionsWriteOnlyTheirFlags := by
  intro i s f h
  cases i with
  | ldaIndX | ldaZp | ldaImm | ldaAbs | ldaIndY | ldaZpX | ldaAbsY | ldaAbsX | ldxImm | ldxZp | ldxAbs | ldxZpY | ldxAbsY
  | ldyImm | ldyZp | ldyAbs | ldyZpX | ldyAbsX | tax | tay | txa | tya | tsx | pla | incZp | incAbs | incZpX | incAbsX | inx
  | iny | decZp | decAbs | decZpX | decAbsX | dex | dey | andIndX | andZp | andImm | andAbs | andIndY | andZpX | andAbsY
  | andAbsX | oraIndX | oraZp | oraImm | oraAbs | oraIndY | oraZpX | oraAbsY | oraAbsX | eorIndX | eorZp | eorImm | eorAbs
  | eorIndY | eorZpX | eorAbsY | eorAbsX =>
    exact ⟨_, rfl, of_setNZ _ _ h⟩
  | aslZp | aslAcc | aslAbs | aslZpX | aslAbsX | lsrZp | lsrAcc | lsrAbs | lsrZpX | lsrAbsX | rolZp | rolAcc | rolAbs | rolZpX
  | rolAbsX | rorZp | rorAcc | rorAbs | rorZpX | rorAbsX =>
    exact ⟨_, rfl, of_setNZ_withCarry _ _ _ h⟩
  | cmpIndX | cmpZp | cmpImm | cmpAbs | cmpIndY | cmpZpX | cmpAbsY | cmpAbsX | cpxImm | cpxZp | cpxAbs | cpyImm | cpyZp
  | cpyAbs =>
    exact ⟨_, rfl, of_compare _ _ _ h⟩
  | adcIndX | adcZp | adcImm | adcAbs | adcIndY | adcZpX | adcAbsY | adcAbsX | sbcIndX | sbcZp | sbcImm | sbcAbs | sbcIndY
  | sbcZpX | sbcAbsY | sbcAbsX =>
    exact ⟨_, rfl, of_setNZ_withCarryOverflow _ _ _ _ h⟩
  | bitZp | bitAbs =>
    exact ⟨_, rfl, of_bitTest _ _ _ h⟩
  | plp | rti =>
    exact absurd (mem_allFlags f) h
  | clc | sec =>
    exact ⟨_, rfl, of_withC _ _ h⟩
  | cli | sei | brk =>
    exact ⟨_, rfl, of_withI _ _ h⟩
  | cld | sed =>
    exact ⟨_, rfl, of_withD _ _ h⟩
  | clv =>
    exact ⟨_, rfl, of_withV _ _ h⟩
  | bpl | bmi | bvc | bvs | bcc | bcs | bne | beq =>
    exact ⟨_, rfl, congrArg f.of (branch_flags ..)⟩
  | staIndX | staZp | staAbs | staIndY | staZpX | staAbsY | staAbsX | stxZp | stxAbs | stxZpY | styZp | styAbs | styZpX | txs
  | pha | php | jmpAbs | jmpInd | jsr | rts | nop =>
    exact ⟨_, rfl, rfl⟩

end Sys2Proof.Claims
end

section
/-! SUPPORT. The length of an instruction: fixed by its mode, and the mode by the opcode byte (30_encoding R120). -/

namespace Sys2Proof.Claims

/-- The operand bytes of an encoding are as many as the mode has. -/
@[simp] theorem length_operandBytes (o : Operand) : o.bytes.length = o.mode.operandBytes := by
  cases o <;> rfl

@[simp] theorem length_encode (i : Instr) : (encode i).length = i.length := by
  simp [encode, Instr.length, Instr.mode, Nat.add_comm]

@[simp] theorem head?_encode (i : Instr) : (encode i).head? = some i.opcode := rfl

open Laws.EncodesAtItsRow in
/-- Every instruction stands at its row of the opcode table: the per-instruction lemmas of Laws/PerInstr, put together. -/
theorem encodesAtItsRow_of_instr (i : Instr) : Laws.EncodesAtItsRow.Statement i := by
  cases i
  exacts [
    brk, oraIndX _, oraZp _, aslZp _, php, oraImm _, aslAcc, oraAbs _, aslAbs _, bpl _, oraIndY _, oraZpX _, aslZpX _,
    clc, oraAbsY _, oraAbsX _, aslAbsX _, jsr _, andIndX _, bitZp _, andZp _, rolZp _, plp, andImm _, rolAcc,
    bitAbs _, andAbs _, rolAbs _, bmi _, andIndY _, andZpX _, rolZpX _, sec, andAbsY _, andAbsX _, rolAbsX _, rti,
    eorIndX _, eorZp _, lsrZp _, pha, eorImm _, lsrAcc, jmpAbs _, eorAbs _, lsrAbs _, bvc _, eorIndY _, eorZpX _,
    lsrZpX _, cli, eorAbsY _, eorAbsX _, lsrAbsX _, rts, adcIndX _, adcZp _, rorZp _, pla, adcImm _, rorAcc, jmpInd _,
    adcAbs _, rorAbs _, bvs _, adcIndY _, adcZpX _, rorZpX _, sei, adcAbsY _, adcAbsX _, rorAbsX _, staIndX _,
    styZp _, staZp _, stxZp _, dey, txa, styAbs _, staAbs _, stxAbs _, bcc _, staIndY _, styZpX _, staZpX _, stxZpY _,
    tya, staAbsY _, txs, staAbsX _, ldyImm _, ldaIndX _, ldxImm _, ldyZp _, ldaZp _, ldxZp _, tay, ldaImm _, tax,
    ldyAbs _, ldaAbs _, ldxAbs _, bcs _, ldaIndY _, ldyZpX _, ldaZpX _, ldxZpY _, clv, ldaAbsY _, tsx, ldyAbsX _,
    ldaAbsX _, ldxAbsY _, cpyImm _, cmpIndX _, cpyZp _, cmpZp _, decZp _, iny, cmpImm _, dex, cpyAbs _, cmpAbs _,
    decAbs _, bne _, cmpIndY _, cmpZpX _, decZpX _, cld, cmpAbsY _, cmpAbsX _, decAbsX _, cpxImm _, sbcIndX _,
    cpxZp _, sbcZp _, incZp _, inx, sbcImm _, nop, cpxAbs _, sbcAbs _, incAbs _, beq _, sbcIndY _, sbcZpX _, incZpX _,
    sed, sbcAbsY _, sbcAbsX _, incAbsX _]

/-- Two instructions with one opcode byte look up one row, and the row has the mode of both. -/
theorem mode_eq_of_opcode_eq {i j : Instr} (h : i.opcode = j.opcode) : i.mode = j.mode := by
  obtain ⟨ri, hri, -, hmi, -⟩ := encodesAtItsRow_of_instr i
  obtain ⟨rj, hrj, -, hmj, -⟩ := encodesAtItsRow_of_instr j
  have hrow : ri = rj := Option.some.inj (by rw [← hri, ← hrj, h])
  rw [← hmi, ← hmj, hrow]

theorem length_eq_of_mode_eq {i j : Instr} (h : i.mode = j.mode) : i.length = j.length := by
  rw [Instr.length, Instr.length, h]

/-- Settles O5: an encoding's operand bytes are those of the mode, and the opcode's row of the table fixes the mode. -/
theorem instructionLengthIsFixedByMode : Obligations.InstructionLengthIsFixedByMode := by
  refine ⟨length_encode, fun i => ?_, fun i j h => ?_⟩
  · rw [Instr.length]
    cases i.mode <;> rfl
  · have hop : i.opcode = j.opcode := by simpa using h
    exact length_eq_of_mode_eq (mode_eq_of_opcode_eq hop)

end Sys2Proof.Claims
end

section
/-! SUPPORT. The effective addresses and the resolver of 40_addressing_modes, in the words of the statements. -/

namespace Sys2Proof.Claims

open Sys2Proof.Machine

/-! ### The effective address of each mode -/

section EffectiveAddress

variable (n : Byte) (w : Word) (s : State)

theorem eaZeroPage_eq : eaZeroPage n = zeroPage n.toNat 0 := (zeroPage_zero n).symm

theorem eaZeroPageX_eq : eaZeroPageX n s = zeroPage n.toNat s.x.toNat := (zeroPage_eq n s.x).symm

theorem eaZeroPageY_eq : eaZeroPageY n s = zeroPage n.toNat s.y.toNat := (zeroPage_eq n s.y).symm

theorem eaAbsoluteX_eq : eaAbsoluteX w s = plus w s.x.toNat := (plus_byte w s.x).symm

theorem eaAbsoluteY_eq : eaAbsoluteY w s = plus w s.y.toNat := (plus_byte w s.y).symm

/-- The pointer of (Indirect,X) is the 8-bit sum, and `zeroPageWord` takes its address mod 256. -/
theorem eaIndexedIndirect_eq : eaIndexedIndirect n s = zeroPageWord s.mem (n.toNat + s.x.toNat) := by
  rw [eaIndexedIndirect, ← zeroPageWord_eq, BitVec.toNat_add]
  exact (zeroPageWord_mod s.mem (n.toNat + s.x.toNat)).symm

theorem eaIndirectIndexed_eq : eaIndirectIndexed n s = plus (zeroPageWord s.mem n.toNat) s.y.toNat := by
  rw [eaIndirectIndexed, zeroPageWord_eq, plus_byte]

theorem eaIndirect_eq : eaIndirect w s =
    pair (s.mem.read w) (s.mem.read (BitVec.ofNat 16 (w.toNat / 256 * 256 + (w.toNat + 1) % 256))) :=
  (pageWrap_eq s.mem w).symm

/-! ### The modes whose page-cross signal depends on the state -/

theorem resolve_absoluteX :
    resolve (.absoluteX w) s = ⟨.addr (plus w s.x.toNat), crosses w (plus w s.x.toNat)⟩ := by
  rw [resolve, pageCrossed_eq, eaAbsoluteX_eq]

theorem resolve_absoluteY :
    resolve (.absoluteY w) s = ⟨.addr (plus w s.y.toNat), crosses w (plus w s.y.toNat)⟩ := by
  rw [resolve, pageCrossed_eq, eaAbsoluteY_eq]

theorem resolve_indirectIndexed : resolve (.indirectIndexed n) s =
    ⟨.addr (plus (zeroPageWord s.mem n.toNat) s.y.toNat),
      crosses (zeroPageWord s.mem n.toNat) (plus (zeroPageWord s.mem n.toNat) s.y.toNat)⟩ := by
  rw [resolve, pageCrossed_eq, eaIndirectIndexed_eq, zeroPageWord_eq]

end EffectiveAddress

/-! ### Every mode -/

/-- Settles O21: `resolve` takes each mode's address from its ea function, and each ea function is the claim's arithmetic. -/
theorem addressingModesResolve : Obligations.AddressingModesResolve := by
  intro n w s
  refine ⟨?zeroPage, ?zeroPageX, ?zeroPageY, rfl, resolve_absoluteX w s, resolve_absoluteY w s, ?indexedIndirect,
    resolve_indirectIndexed n s, ?indirect, rfl, rfl, rfl, rfl, rfl, rfl, rfl, rfl, rfl⟩
  case zeroPage => rw [resolve, eaZeroPage_eq]
  case zeroPageX => rw [resolve, eaZeroPageX_eq]
  case zeroPageY => rw [resolve, eaZeroPageY_eq]
  case indexedIndirect => rw [resolve, eaIndexedIndirect_eq]
  case indirect => rw [resolve, eaIndirect_eq]

end Sys2Proof.Claims
end

section
/-! SUPPORT. The flag operations of 41_alu_flags in the words of the statements: `set_nz` (R200) and the bit test (R207). -/

namespace Sys2Proof.Machine

/-! ### `set_nz` (R200) -/

/-- Settles O56: N and Z are the claim's comparisons by `Flags.setNZ_eq`, and the other flags are not written. -/
theorem setNzIsHighBitAndZero : Obligations.SetNzIsHighBitAndZero := by
  intro f v
  refine ⟨?n, ?z, Flags.setNZ_v f v, Flags.setNZ_d f v, Flags.setNZ_i f v, Flags.setNZ_c f v⟩
  case n => rw [Flags.setNZ_eq, decide_eq_true_iff]
  case z => rw [Flags.setNZ_eq, decide_eq_true_iff]

/-! ### The bit test (R207) -/

/-- Bit 6 of a byte is set exactly when the byte without bit 7 is 64 or more. -/
theorem getLsbD_six (b : Byte) : b.getLsbD 6 = decide (64 ≤ b.toNat % 128) := by
  rw [BitVec.getLsbD, Nat.testBit_eq_decide_div_mod_eq, decide_eq_decide]
  omega

theorem and_eq_zero_iff_getLsbD (a m : Byte) :
    a &&& m = 0#8 ↔ ∀ k < 8, (a.getLsbD k && m.getLsbD k) = false := by
  constructor
  · intro h k _
    rw [← BitVec.getLsbD_and, h, BitVec.getLsbD_zero]
  · intro h
    refine BitVec.eq_of_getLsbD_eq fun k hk => ?_
    rw [BitVec.getLsbD_and, BitVec.getLsbD_zero, h k hk]

/-- The bytes share no bit, tested bit by bit. -/
theorem decide_and_eq_zero (a m : Byte) :
    decide (a &&& m = 0#8) = (List.range 8).all fun k => !(a.getLsbD k && m.getLsbD k) := by
  rw [Bool.eq_iff_iff, decide_eq_true_iff, and_eq_zero_iff_getLsbD]
  simp only [List.all_eq_true, List.mem_range, Bool.not_eq_true']

/-- All of `BitTest` (41_alu_flags R207). -/
theorem Flags.bitTest_eq (f : Flags) (a m : Byte) :
    f.bitTest a m = { f with v := decide (64 ≤ m.toNat % 128), n := decide (128 ≤ m.toNat),
                             z := (List.range 8).all fun k => !(a.getLsbD k && m.getLsbD k) } := by
  rw [bitTest, getLsbD_six, getLsbD_seven, decide_and_eq_zero]

theorem exec_bitZp (n : Byte) (s : State) : exec (.bitZp n) s = .next (bit (s.mem.read (eaZeroPage n)) s) := rfl

theorem exec_bitAbs (w : Word) (s : State) : exec (.bitAbs w) s = .next (bit (s.mem.read (eaAbsolute w)) s) := rfl

/-- Settles O35: both forms write only the flags of `BitTest`, on the byte at their effective address. -/
theorem bitTestsMemoryAgainstAccumulator : Obligations.BitTestsMemoryAgainstAccumulator := by
  intro n w s
  refine ⟨?zeroPage, ?absolute⟩
  case zeroPage => rw [exec_bitZp, bit_eq, Flags.bitTest_eq]
  case absolute => rw [exec_bitAbs, bit_eq, Flags.bitTest_eq]

end Sys2Proof.Machine
end

section
/-! SUPPORT. The loads, stores and transfers of 42_load_store_transfer in the words of the statements. Each arm of `exec` is, by
definition, `.next` of one shared operation at the byte or the address of its mode, so one lemma per operation serves every form. -/

namespace Sys2Proof.Claims

open Sys2Proof.Machine

variable (m : Byte) (ea : Word) (s : State)

/-! ### Loads and transfers: the register takes the byte, N and Z follow it -/

theorem lda_eq_loadA : lda m s = loadA s m := by
  rw [lda_eq, loadA, nz_eq]

theorem ldx_eq_loadX : ldx m s = loadX s m := by
  rw [ldx_eq, loadX, nz_eq]

theorem ldy_eq_loadY : ldy m s = loadY s m := by
  rw [ldy_eq, loadY, nz_eq]

theorem next_lda : (.next (lda m s) : Result) = .next (loadA s m) := congrArg _ (lda_eq_loadA m s)

theorem next_ldx : (.next (ldx m s) : Result) = .next (loadX s m) := congrArg _ (ldx_eq_loadX m s)

theorem next_ldy : (.next (ldy m s) : Result) = .next (loadY s m) := congrArg _ (ldy_eq_loadY m s)

/-- Settles O22: each form is LDA (R230) of the immediate byte, or of the byte at the address of its mode. -/
theorem ldaLoadsAccumulator : Obligations.LdaLoadsAccumulator := fun n w s =>
  ⟨next_lda (s.mem.read (eaIndexedIndirect n s)) s, next_lda (s.mem.read (eaZeroPage n)) s, next_lda n s,
    next_lda (s.mem.read (eaAbsolute w)) s, next_lda (s.mem.read (eaIndirectIndexed n s)) s,
    next_lda (s.mem.read (eaZeroPageX n s)) s, next_lda (s.mem.read (eaAbsoluteY w s)) s,
    next_lda (s.mem.read (eaAbsoluteX w s)) s⟩

/-- Settles O23: each form is LDX (R231) or LDY (R232) of the immediate byte, or of the byte at the address of its mode. -/
theorem ldxLdyLoadIndex : Obligations.LdxLdyLoadIndex := fun n w s =>
  ⟨next_ldx n s, next_ldx (s.mem.read (eaZeroPage n)) s, next_ldx (s.mem.read (eaAbsolute w)) s,
    next_ldx (s.mem.read (eaZeroPageY n s)) s, next_ldx (s.mem.read (eaAbsoluteY w s)) s,
    next_ldy n s, next_ldy (s.mem.read (eaZeroPage n)) s, next_ldy (s.mem.read (eaAbsolute w)) s,
    next_ldy (s.mem.read (eaZeroPageX n s)) s, next_ldy (s.mem.read (eaAbsoluteX w s)) s⟩

/-- Settles O26: a transfer that writes flags is the load of its destination with the source register for the byte. -/
theorem transfersSetNZ : Obligations.TransfersSetNZ := fun s =>
  ⟨next_ldx s.a s, next_ldy s.a s, next_lda s.x s, next_lda s.y s, next_ldx s.sp s⟩

/-! ### Stores: one byte of memory takes the register -/

/-- A write of one byte to the state's memory is a store that leaves the flags. -/
theorem stores_write8 : Stores s (.next (s.write8 ea m)) ea m s.flags :=
  ⟨s.mem.write ea m, rfl, oneByte_write s.mem ea m⟩

theorem stores_sta : Stores s (.next (sta ea s)) ea s.a s.flags := stores_write8 s.a ea s

theorem stores_stx : Stores s (.next (stx ea s)) ea s.x s.flags := stores_write8 s.x ea s

theorem stores_sty : Stores s (.next (sty ea s)) ea s.y s.flags := stores_write8 s.y ea s

/-- Settles O24: each form is STA (R233) at the address of its mode. -/
theorem staStoresAccumulator : Obligations.StaStoresAccumulator := fun n w s =>
  ⟨stores_sta (eaIndexedIndirect n s) s, stores_sta (eaZeroPage n) s, stores_sta (eaAbsolute w) s,
    stores_sta (eaIndirectIndexed n s) s, stores_sta (eaZeroPageX n s) s, stores_sta (eaAbsoluteY w s) s,
    stores_sta (eaAbsoluteX w s) s⟩

/-- Settles O25: each form is STX (R234) or STY (R235) at the address of its mode. -/
theorem stxStyStoreIndex : Obligations.StxStyStoreIndex := fun n w s =>
  ⟨stores_stx (eaZeroPage n) s, stores_stx (eaAbsolute w) s, stores_stx (eaZeroPageY n s) s,
    stores_sty (eaZeroPage n) s, stores_sty (eaAbsolute w) s, stores_sty (eaZeroPageX n s) s⟩

end Sys2Proof.Claims
end

section
/-! SUPPORT. The increments and decrements of 43_inc_dec in the words of the statements. In memory they are one write of one byte and
one change of the flags; in an index register they are the load of the register with its own value moved by one. -/

namespace Sys2Proof.Claims

open Sys2Proof.Machine

variable (m : Byte) (ea : Word) (s : State)

/-! ### INC and DEC: one byte of memory moves by one, N and Z follow it -/

/-- A write of one byte to the state's memory, with new flags, is a store. -/
theorem stores_write_flags (f : Flags) : Stores s (.next { s with mem := s.mem.write ea m, flags := f }) ea m f :=
  ⟨s.mem.write ea m, rfl, oneByte_write s.mem ea m⟩

theorem incFlags_eq (f : Flags) : incFlags f m = f.setNZ (increment m) := by
  rw [incFlags, nz_eq, incOf_eq]

theorem decFlags_eq (f : Flags) : decFlags f m = f.setNZ (decrement m) := by
  rw [decFlags, nz_eq, decOf_eq]

theorem modifies_inc : Modifies s (.next (inc ea s)) ea incOf (incFlags s.flags) := by
  rw [Modifies, incFlags_eq, incOf_eq, inc_eq]
  exact stores_write_flags (increment (s.mem.read ea)) ea s _

theorem modifies_dec : Modifies s (.next (dec ea s)) ea decOf (decFlags s.flags) := by
  rw [Modifies, decFlags_eq, decOf_eq, dec_eq]
  exact stores_write_flags (decrement (s.mem.read ea)) ea s _

/-- Settles O28: each form is INC (R260) or DEC (R263) at the address of its mode. -/
theorem incDecMemory : Obligations.IncDecMemory := fun n w s =>
  ⟨modifies_inc (eaZeroPage n) s, modifies_inc (eaAbsolute w) s, modifies_inc (eaZeroPageX n s) s,
    modifies_inc (eaAbsoluteX w s) s, modifies_dec (eaZeroPage n) s, modifies_dec (eaAbsolute w) s,
    modifies_dec (eaZeroPageX n s) s, modifies_dec (eaAbsoluteX w s) s⟩

/-! ### INX, INY, DEX, DEY: the register is loaded with its own value moved by one -/

theorem exec_inx : exec .inx s = .next (ldx (increment s.x) s) := rfl

theorem exec_iny : exec .iny s = .next (ldy (increment s.y) s) := rfl

theorem exec_dex : exec .dex s = .next (ldx (decrement s.x) s) := rfl

theorem exec_dey : exec .dey s = .next (ldy (decrement s.y) s) := rfl

/-- Settles O29: each is a load (R231, R232) of the register with itself moved by one (R261, R262, R264, R265). -/
theorem incDecIndexRegisters : Obligations.IncDecIndexRegisters := by
  intro s
  refine ⟨?inx, ?iny, ?dex, ?dey⟩
  case inx => rw [exec_inx, ldx_eq_loadX, incOf_eq]
  case iny => rw [exec_iny, ldy_eq_loadY, incOf_eq]
  case dex => rw [exec_dex, ldx_eq_loadX, decOf_eq]
  case dey => rw [exec_dey, ldy_eq_loadY, decOf_eq]

end Sys2Proof.Claims
end

section
/-! SUPPORT. ORA, AND and EOR of 44_logical_shift in the words of the statements: the machine's operation on whole bytes is the
claim's operation bit by bit (41_alu_flags R208). -/

namespace Sys2Proof.Claims

open Sys2Proof.Machine

variable (a m : Byte) (s : State)

/-! ### The bitwise operations, bit by bit (R208) -/

theorem getLsbD_bitwise (op : Bool → Bool → Bool) {k : Nat} (hk : k < 8) :
    (bitwise op a m).getLsbD k = op (a.getLsbD k) (m.getLsbD k) := by
  rw [bitwise, BitVec.getLsbD_ofBoolListLE]
  interval_cases k <;> rfl

/-- A byte each of whose bits is `op` of the two operands' bits is the claim's result. -/
theorem bitwise_eq_of_getLsbD {op : Bool → Bool → Bool} {a m r : Byte}
    (h : ∀ k, r.getLsbD k = op (a.getLsbD k) (m.getLsbD k)) : bitwise op a m = r :=
  BitVec.eq_of_getLsbD_eq fun k hk => (getLsbD_bitwise a m op hk).trans (h k).symm

theorem bitwise_or : bitwise or a m = a ||| m := bitwise_eq_of_getLsbD fun _ => BitVec.getLsbD_or

theorem bitwise_and : bitwise Bool.and a m = a &&& m := bitwise_eq_of_getLsbD fun _ => BitVec.getLsbD_and

theorem bitwise_xor : bitwise xor a m = a ^^^ m := bitwise_eq_of_getLsbD fun _ => BitVec.getLsbD_xor

/-! ### ORA, AND and EOR: A takes the result, N and Z follow it -/

theorem ora_eq_logic : ora m s = logic s or m := by
  rw [ora_eq, logic, loadA, nz_eq, bitwise_or]

theorem and_eq_logic : and m s = logic s Bool.and m := by
  rw [and_eq, logic, loadA, nz_eq, bitwise_and]

theorem eor_eq_logic : eor m s = logic s xor m := by
  rw [eor_eq, logic, loadA, nz_eq, bitwise_xor]

theorem next_ora : (.next (ora m s) : Result) = .next (logic s or m) := congrArg _ (ora_eq_logic m s)

theorem next_and : (.next (and m s) : Result) = .next (logic s Bool.and m) := congrArg _ (and_eq_logic m s)

theorem next_eor : (.next (eor m s) : Result) = .next (logic s xor m) := congrArg _ (eor_eq_logic m s)

/-- Settles O30: each form is ORA (R280), AND (R281) or EOR (R282) of the immediate byte, or of the byte at the address of its
mode. -/
theorem oraAndEorCombineWithAccumulator : Obligations.OraAndEorCombineWithAccumulator := fun n w s =>
  ⟨next_ora (s.mem.read (eaIndexedIndirect n s)) s, next_ora (s.mem.read (eaZeroPage n)) s, next_ora n s,
    next_ora (s.mem.read (eaAbsolute w)) s, next_ora (s.mem.read (eaIndirectIndexed n s)) s,
    next_ora (s.mem.read (eaZeroPageX n s)) s, next_ora (s.mem.read (eaAbsoluteY w s)) s,
    next_ora (s.mem.read (eaAbsoluteX w s)) s,
    next_and (s.mem.read (eaIndexedIndirect n s)) s, next_and (s.mem.read (eaZeroPage n)) s, next_and n s,
    next_and (s.mem.read (eaAbsolute w)) s, next_and (s.mem.read (eaIndirectIndexed n s)) s,
    next_and (s.mem.read (eaZeroPageX n s)) s, next_and (s.mem.read (eaAbsoluteY w s)) s,
    next_and (s.mem.read (eaAbsoluteX w s)) s,
    next_eor (s.mem.read (eaIndexedIndirect n s)) s, next_eor (s.mem.read (eaZeroPage n)) s, next_eor n s,
    next_eor (s.mem.read (eaAbsolute w)) s, next_eor (s.mem.read (eaIndirectIndexed n s)) s,
    next_eor (s.mem.read (eaZeroPageX n s)) s, next_eor (s.mem.read (eaAbsoluteY w s)) s,
    next_eor (s.mem.read (eaAbsoluteX w s)) s⟩

end Sys2Proof.Claims
end

section
/-! SUPPORT. ADC of 45_arithmetic_compare in the words of the statements: the sum, the carry and the signed overflow of `Add`
(41_alu_flags R202, R203) written to A and the flags. -/

namespace Sys2Proof.Claims

open Sys2Proof.Machine

variable (m : Byte) (s : State)

/-- The byte of the sum is the sum mod 256. -/
theorem ofNat_sum_mod (a m : Byte) (c : Bool) :
    BitVec.ofNat 8 ((a.toNat + m.toNat + c.toNat) % 256) = (add a m c).value := by
  apply BitVec.eq_of_toNat_eq
  rw [add_value, BitVec.toNat_ofNat]
  exact Nat.mod_mod _ 256

/-- The claim's result is that of the adder, value, carry (`add_carry`) and overflow (`add_overflow`). -/
theorem adc_eq_adcResult : adc m s = adcResult s m := by
  rw [adc_eq, sumToA_eq, add_carry, add_overflow]
  simp only [adcResult, ofNat_sum_mod, nz_eq, signed8_eq]

theorem next_adc : (.next (adc m s) : Result) = .next (adcResult s m) := congrArg _ (adc_eq_adcResult m s)

/-- Settles O32: each form is ADC (R300) of the immediate byte, or of the byte at the address of its mode. -/
theorem adcAddsWithCarry : Obligations.AdcAddsWithCarry := fun n w s =>
  ⟨next_adc (s.mem.read (eaIndexedIndirect n s)) s, next_adc (s.mem.read (eaZeroPage n)) s, next_adc n s,
    next_adc (s.mem.read (eaAbsolute w)) s, next_adc (s.mem.read (eaIndirectIndexed n s)) s,
    next_adc (s.mem.read (eaZeroPageX n s)) s, next_adc (s.mem.read (eaAbsoluteY w s)) s,
    next_adc (s.mem.read (eaAbsoluteX w s)) s⟩

end Sys2Proof.Claims
end

section
/-! SUPPORT. The stack manager, PHA and PLA of 47_stack in the words of the statements: one push rule and two pull rules, with SP and
the stack address as numbers. -/

namespace Sys2Proof.Claims

open Sys2Proof.Machine

variable (v : Byte) (s : State)

/-! ### The stack manager (R340, R342) -/

/-- A push changes one byte of memory, the one SP names, and moves SP down by one. -/
theorem push_writes_stackByte :
    ∃ m', s.push v = { s with mem := m', sp := BitVec.ofNat 8 ((s.sp.toNat + 255) % 256) } ∧
      OneByte s.mem m' (stackByte s.sp.toNat) v := by
  rw [sp_sub_one, stackByte_eq, push_eq]
  exact ⟨_, rfl, oneByte_write s.mem (stackAddress s.sp) v⟩

theorem pulled_eq_read_stackByte : s.pulled = s.mem.read (stackByte (s.sp.toNat + 1)) := by
  rw [stackByte_add, State.pulled_eq]

theorem afterPull_eq_sp_add_one : s.afterPull = { s with sp := BitVec.ofNat 8 ((s.sp.toNat + 1) % 256) } := by
  rw [sp_add, State.afterPull, State.setSp]

/-- Every stack byte lies in page 1 (R342). -/
theorem stackByte_mem_page_one (sp : Byte) : 0x0100 ≤ (stackByte sp.toNat).toNat ∧ (stackByte sp.toNat).toNat ≤ 0x01FF := by
  rw [stackByte_eq, toNat_stackAddress]
  omega

/-- Settles O51: the push rule and the two pull rules; SP names 0x0100 both for a push at 0x00 and for a pull that wraps from 0xFF. -/
theorem stackPushAndPull : Obligations.StackPushAndPull := fun s v =>
  ⟨push_writes_stackByte v s, pulled_eq_read_stackByte s, afterPull_eq_sp_add_one s,
    rfl, stackByte_mod (j := 256) (k := 0) rfl, stackByte_mem_page_one⟩

/-! ### PHA (R343) and PLA (R345) -/

theorem exec_pha : exec .pha s = .next (s.push s.a) := rfl

/-- PLA is the load (R201) of the pulled byte, in the state the pull leaves. -/
theorem exec_pla : exec .pla s = .next (lda s.pulled s.afterPull) := rfl

/-- Settles O37: PHA is the push of A. -/
theorem phaPushesAccumulator : Obligations.PhaPushesAccumulator := by
  intro s
  obtain ⟨m', hpush, hbyte⟩ := push_writes_stackByte s.a s
  exact ⟨m', by rw [exec_pha, hpush], hbyte⟩

/-- Settles O38: PLA loads A with the pulled byte, after SP has moved up by one. -/
theorem plaPullsAccumulator : Obligations.PlaPullsAccumulator := by
  intro s
  rw [exec_pla, lda_eq_loadA, pulled_eq_read_stackByte, afterPull_eq_sp_add_one]

end Sys2Proof.Claims
end

section
/-! SUPPORT. JMP, JSR and RTS of 48_control_transfer in the words of the statements: the 16-bit push and pull, with SP and the stack
addresses as numbers. -/

namespace Sys2Proof.Claims

open Sys2Proof.Machine

variable (w : Word) (s : State)

/-! ### The 16-bit push and pull (R341) -/

/-- A 16-bit push changes the two bytes of memory from SP down, the high byte first, and moves SP down by two. -/
theorem push16_pushes_word :
    ∃ m', s.push16 w = { s with mem := m', sp := BitVec.ofNat 8 ((s.sp.toNat + 254) % 256) } ∧
      Pushed s.mem m' s.sp.toNat [highByte w, lowByte w] := by
  rw [sp_sub_two]
  exact ⟨(s.push16 w).mem, push16_eq s w, pushed_push16 s w⟩

/-- Two pulls move SP up by one each. -/
theorem add_one_add_one (sp : Byte) : sp + 1#8 + 1#8 = sp + 2#8 := BitVec.add_assoc sp 1#8 1#8

theorem afterPull16_eq_sp_add_two : s.afterPull16 = { s with sp := BitVec.ofNat 8 ((s.sp.toNat + 2) % 256) } := by
  rw [sp_add, ← add_one_add_one]
  rfl

theorem pulled16_eq_pair_stackBytes :
    s.pulled16 = pair (s.mem.read (stackByte (s.sp.toNat + 1))) (s.mem.read (stackByte (s.sp.toNat + 2))) := by
  rw [pair_eq, stackByte_add, stackByte_add, State.pulled16_eq, add_one_add_one]

/-! ### JMP (R360), JSR (R361) and RTS (R362) -/

theorem exec_jmpAbs : exec (.jmpAbs w) s = .next (jmp (eaAbsolute w) s) := rfl

theorem exec_jmpInd : exec (.jmpInd w) s = .next (jmp (eaIndirect w s) s) := rfl

/-- JSR pushes the address of its own last byte, one before the PC that is past the instruction. -/
theorem exec_jsr : exec (.jsr w) s = .next ((s.push16 (s.pc - 1#16)).setPc w) := rfl

theorem exec_rts : exec .rts s = .next (s.afterPull16.setPc (s.pulled16 + 1#16)) := rfl

/-- Settles O40: JMP sets PC to the address of its mode, and the indirect address is read within the pointer's page. -/
theorem jmpSetsPc : Obligations.JmpSetsPc := by
  intro w s
  refine ⟨?absolute, ?indirect⟩
  case absolute => rw [exec_jmpAbs, jmp_eq, eaAbsolute]
  case indirect => rw [exec_jmpInd, jmp_eq, eaIndirect_eq]

/-- Settles O41: JSR is the 16-bit push of PC - 1, then a jump to the operand. -/
theorem jsrPushesReturnAddress : Obligations.JsrPushesReturnAddress := by
  intro w s
  obtain ⟨m', hpush, hbytes⟩ := push16_pushes_word (plus s.pc 65535) s
  exact ⟨m', by rw [exec_jsr, ← plus_pred, hpush, State.setPc], hbytes⟩

/-- Settles O42: RTS is the 16-bit pull, then a jump to the pulled word plus 1. -/
theorem rtsReturnsPastThePushedWord : Obligations.RtsReturnsPastThePushedWord := by
  intro s
  rw [exec_rts, pulled16_eq_pair_stackBytes, afterPull16_eq_sp_add_two, plus_eq, State.setPc]

end Sys2Proof.Claims
end

section
/-! SUPPORT. The flag instructions and NOP of 49_flag_nop in the words of the statements. Each flag instruction is, by definition,
one `setFlags` whose new flags differ from the old in the flag it names. -/

namespace Sys2Proof.Claims

open Sys2Proof.Machine

variable (f : Flags) (s : State)

theorem next_setFlags : (.next (s.setFlags f) : Result) = .next { s with flags := f } := rfl

theorem exec_nop : exec .nop s = .next s := rfl

/-- Settles O45: each flag instruction is `setFlags` with the one flag it names replaced (R380 to R386), and NOP is R387. -/
theorem flagInstructionsWriteOneFlag : Obligations.FlagInstructionsWriteOneFlag := by
  intro s
  refine ⟨?clc, ?sec, ?cli, ?sei, ?cld, ?sed, ?clv, ?nop⟩
  case clc => exact next_setFlags { s.flags with c := false } s
  case sec => exact next_setFlags { s.flags with c := true } s
  case cli => exact next_setFlags { s.flags with i := false } s
  case sei => exact next_setFlags { s.flags with i := true } s
  case cld => exact next_setFlags { s.flags with d := false } s
  case sed => exact next_setFlags { s.flags with d := true } s
  case clv => exact next_setFlags { s.flags with v := false } s
  case nop => exact exec_nop s

end Sys2Proof.Claims
end

section
/-! SUPPORT. The decoder and the encoder of 30_encoding are inverse to each other, and the rows of the opcode table as the statements
write them. -/

namespace Sys2Proof.Claims

open Sys2Proof.Machine

/-! ### The round trips -/

theorem decode_encode (i : Instr) (rest : List Byte) (hw : i.wellFormed = true) : decode (encode i ++ rest) = .ok (i, rest) :=
  decode_encode_of_row (encodesAtItsRow_of_instr i) hw rest

/-- Settles O3: the opcode looks up the instruction's own row, and the row reads the operand bytes back. -/
theorem decodeOfEncodeIsTheInstruction : Obligations.DecodeOfEncodeIsTheInstruction := decode_encode

/-- What decodes was read by the row of its opcode byte from the bytes after it. -/
theorem fill_of_decode {op : Byte} {bs rest : List Byte} {i : Instr} (h : decode (op :: bs) = .ok (i, rest)) :
    ∃ row, lookupOpcode op = some row ∧ row.form.fill op bs = .ok (i, rest) := by
  cases hrow : lookupOpcode op with
  | none => simp [decode_of_lookup_none hrow] at h
  | some row => exact ⟨row, rfl, by simpa only [decode, hrow] using h⟩

/-- What decodes is well-formed and stands at the opcode byte and the operand bytes it was read from. -/
theorem decode_sound {op : Byte} {bs rest : List Byte} {i : Instr} (h : decode (op :: bs) = .ok (i, rest)) :
    i.wellFormed = true ∧ i.opcode = op ∧ i.operand.bytes ++ rest = bs := by
  obtain ⟨row, hrow, hfill⟩ := fill_of_decode h
  obtain ⟨hmem, rfl⟩ := lookupOpcode_mem hrow
  exact (opcodeTable_sound row hmem).fill hfill

/-- Settles O4: a row is sound, so what it fills has the row's opcode and the operand bytes read. -/
theorem encodeOfDecodeIsTheBytes : Obligations.EncodeOfDecodeIsTheBytes := by
  intro bs rest i h
  cases bs with
  | nil => cases h
  | cons op bs =>
    obtain ⟨hw, hop, hbytes⟩ := decode_sound h
    exact ⟨hw, by rw [encode, List.cons_append, hop, hbytes]⟩

/-! ### The rows of the table (30_encoding R126), one rule for each form of operand -/

theorem decode_implied (i : Instr) {rest : List Byte} (hb : i.operand.bytes = [] := by rfl) (hw : i.wellFormed = true := by rfl) :
    decode (i.opcode :: rest) = .ok (i, rest) := by
  simpa only [encode, hb, List.cons_append, List.nil_append] using decode_encode i rest hw

theorem decode_byteOperand (f : Byte → Instr) {n : Byte} {rest : List Byte} (hb : (f n).operand.bytes = [n] := by rfl)
    (hw : (f n).wellFormed = true := by rfl) : decode ((f n).opcode :: n :: rest) = .ok (f n, rest) := by
  simpa only [encode, hb, List.cons_append, List.nil_append] using decode_encode (f n) rest hw

/-- A 16-bit operand is assembled little-endian (R122). -/
theorem decode_wordOperand (f : Word → Instr) {l h : Byte} {rest : List Byte}
    (hb : ∀ w, (f w).operand.bytes = [lo w, Machine.hi w] := by intro _; rfl)
    (hw : (f (pair l h)).wellFormed = true := by rfl) :
    decode ((f (pair l h)).opcode :: l :: h :: rest) = .ok (f (pair l h), rest) := by
  have hbytes : (f (pair l h)).operand.bytes = [l, h] := by rw [hb, pair_eq, lo_word, hi_word]
  simpa only [encode, hbytes, List.cons_append, List.nil_append] using decode_encode (f (pair l h)) rest hw

/-- A branch offset is its byte read as a signed number (R122). -/
theorem decode_offsetOperand (f : Int → Instr) {n : Byte} {rest : List Byte}
    (ho : (f (signed8 n)).operand = .relative (signed8 n) := by rfl) :
    decode ((f (signed8 n)).opcode :: n :: rest) = .ok (f (signed8 n), rest) := by
  have hbytes : (f (signed8 n)).operand.bytes = [n] := by rw [ho, signed8_eq, Operand.bytes, BitVec.ofInt_toInt]
  have hw : (f (signed8 n)).wellFormed = true := by
    have := n.toInt_lt
    have := n.le_toInt
    rw [Instr.wellFormed, ho, signed8_eq, Operand.wellFormed, Bool.and_eq_true, decide_eq_true_iff, decide_eq_true_iff]
    omega
  simpa only [encode, hbytes, List.cons_append, List.nil_append] using decode_encode (f (signed8 n)) rest hw

/-- Settles O1: each row is the rule of its form of operand. -/
theorem opcodeTableDecodes : Obligations.OpcodeTableDecodes := fun _ _ _ _ =>
  ⟨decode_implied .brk, decode_byteOperand .oraIndX, decode_byteOperand .oraZp, decode_byteOperand .aslZp,
    decode_implied .php, decode_byteOperand .oraImm, decode_implied .aslAcc, decode_wordOperand .oraAbs,
    decode_wordOperand .aslAbs, decode_offsetOperand .bpl, decode_byteOperand .oraIndY, decode_byteOperand .oraZpX,
    decode_byteOperand .aslZpX, decode_implied .clc, decode_wordOperand .oraAbsY, decode_wordOperand .oraAbsX,
    decode_wordOperand .aslAbsX, decode_wordOperand .jsr, decode_byteOperand .andIndX, decode_byteOperand .bitZp,
    decode_byteOperand .andZp, decode_byteOperand .rolZp, decode_implied .plp, decode_byteOperand .andImm,
    decode_implied .rolAcc, decode_wordOperand .bitAbs, decode_wordOperand .andAbs, decode_wordOperand .rolAbs,
    decode_offsetOperand .bmi, decode_byteOperand .andIndY, decode_byteOperand .andZpX, decode_byteOperand .rolZpX,
    decode_implied .sec, decode_wordOperand .andAbsY, decode_wordOperand .andAbsX, decode_wordOperand .rolAbsX,
    decode_implied .rti, decode_byteOperand .eorIndX, decode_byteOperand .eorZp, decode_byteOperand .lsrZp,
    decode_implied .pha, decode_byteOperand .eorImm, decode_implied .lsrAcc, decode_wordOperand .jmpAbs,
    decode_wordOperand .eorAbs, decode_wordOperand .lsrAbs, decode_offsetOperand .bvc, decode_byteOperand .eorIndY,
    decode_byteOperand .eorZpX, decode_byteOperand .lsrZpX, decode_implied .cli, decode_wordOperand .eorAbsY,
    decode_wordOperand .eorAbsX, decode_wordOperand .lsrAbsX, decode_implied .rts, decode_byteOperand .adcIndX,
    decode_byteOperand .adcZp, decode_byteOperand .rorZp, decode_implied .pla, decode_byteOperand .adcImm,
    decode_implied .rorAcc, decode_wordOperand .jmpInd, decode_wordOperand .adcAbs, decode_wordOperand .rorAbs,
    decode_offsetOperand .bvs, decode_byteOperand .adcIndY, decode_byteOperand .adcZpX, decode_byteOperand .rorZpX,
    decode_implied .sei, decode_wordOperand .adcAbsY, decode_wordOperand .adcAbsX, decode_wordOperand .rorAbsX,
    decode_byteOperand .staIndX, decode_byteOperand .styZp, decode_byteOperand .staZp, decode_byteOperand .stxZp,
    decode_implied .dey, decode_implied .txa, decode_wordOperand .styAbs, decode_wordOperand .staAbs,
    decode_wordOperand .stxAbs, decode_offsetOperand .bcc, decode_byteOperand .staIndY, decode_byteOperand .styZpX,
    decode_byteOperand .staZpX, decode_byteOperand .stxZpY, decode_implied .tya, decode_wordOperand .staAbsY,
    decode_implied .txs, decode_wordOperand .staAbsX, decode_byteOperand .ldyImm, decode_byteOperand .ldaIndX,
    decode_byteOperand .ldxImm, decode_byteOperand .ldyZp, decode_byteOperand .ldaZp, decode_byteOperand .ldxZp,
    decode_implied .tay, decode_byteOperand .ldaImm, decode_implied .tax, decode_wordOperand .ldyAbs,
    decode_wordOperand .ldaAbs, decode_wordOperand .ldxAbs, decode_offsetOperand .bcs, decode_byteOperand .ldaIndY,
    decode_byteOperand .ldyZpX, decode_byteOperand .ldaZpX, decode_byteOperand .ldxZpY, decode_implied .clv,
    decode_wordOperand .ldaAbsY, decode_implied .tsx, decode_wordOperand .ldyAbsX, decode_wordOperand .ldaAbsX,
    decode_wordOperand .ldxAbsY, decode_byteOperand .cpyImm, decode_byteOperand .cmpIndX, decode_byteOperand .cpyZp,
    decode_byteOperand .cmpZp, decode_byteOperand .decZp, decode_implied .iny, decode_byteOperand .cmpImm,
    decode_implied .dex, decode_wordOperand .cpyAbs, decode_wordOperand .cmpAbs, decode_wordOperand .decAbs,
    decode_offsetOperand .bne, decode_byteOperand .cmpIndY, decode_byteOperand .cmpZpX, decode_byteOperand .decZpX,
    decode_implied .cld, decode_wordOperand .cmpAbsY, decode_wordOperand .cmpAbsX, decode_wordOperand .decAbsX,
    decode_byteOperand .cpxImm, decode_byteOperand .sbcIndX, decode_byteOperand .cpxZp, decode_byteOperand .sbcZp,
    decode_byteOperand .incZp, decode_implied .inx, decode_byteOperand .sbcImm, decode_implied .nop,
    decode_wordOperand .cpxAbs, decode_wordOperand .sbcAbs, decode_wordOperand .incAbs, decode_offsetOperand .beq,
    decode_byteOperand .sbcIndY, decode_byteOperand .sbcZpX, decode_byteOperand .incZpX, decode_implied .sed,
    decode_wordOperand .sbcAbsY, decode_wordOperand .sbcAbsX, decode_wordOperand .incAbsX⟩

/-! ### The opcodes without a row (30_encoding R128) -/

/-- A list of opcode bytes as a number with one bit for each, so that 256 opcodes are compared at once. -/
def opcodeSet (ops : List Byte) : Nat := ops.foldr (fun op bits => 1 <<< op.toNat ||| bits) 0

theorem testBit_opcodeSet (ops : List Byte) (op : Byte) : (opcodeSet ops).testBit op.toNat = decide (op ∈ ops) := by
  induction ops with
  | nil => simp [opcodeSet]
  | cons o ops ih =>
    have ho : (1 <<< o.toNat).testBit op.toNat = decide (op = o) := by
      rw [Nat.one_shiftLeft, Nat.testBit_two_pow, decide_eq_decide, BitVec.toNat_inj, eq_comm]
    rw [opcodeSet, List.foldr_cons, Nat.testBit_or, ho, ← opcodeSet, ih, ← Bool.decide_or]
    exact decide_eq_decide.2 List.mem_cons.symm

/-- The table and the list of undefined opcodes share the 256 opcode values out between them. -/
theorem opcodeSet_table_xor_undefined :
    opcodeSet (opcodeTable.map Row.opcode) ^^^ opcodeSet undefinedOpcodes = 2 ^ 256 - 1 := by
  simp [opcodeSet, undefinedOpcodes, opcodeTable, opcodeRows0, opcodeRows1, opcodeRows2, opcodeRows3, opcodeRows4, opcodeRows5,
    opcodeRows6, opcodeRows7]

theorem mem_undefinedOpcodes_iff (op : Byte) : op ∈ undefinedOpcodes ↔ op ∉ opcodeTable.map Row.opcode := by
  have h : (2 ^ 256 - 1).testBit op.toNat = true := by rw [Nat.testBit_two_pow_sub_one, decide_eq_true op.isLt]
  rw [← opcodeSet_table_xor_undefined, Nat.testBit_xor, testBit_opcodeSet, testBit_opcodeSet] at h
  by_cases hop : op ∈ opcodeTable.map Row.opcode
  · simpa only [hop, decide_true, Bool.true_xor, Bool.not_eq_true', decide_eq_false_iff_not, not_true, iff_false] using h
  · simpa only [hop, decide_false, Bool.false_xor, decide_eq_true_eq, not_false_eq_true, iff_true] using h

theorem lookupOpcode_eq_none_iff (op : Byte) : lookupOpcode op = none ↔ op ∈ undefinedOpcodes := by
  rw [mem_undefinedOpcodes_iff, lookupOpcode, List.find?_eq_none, List.mem_map]
  simp only [beq_iff_eq, not_exists, not_and]

/-- Settles O2: on three bytes the decoder refuses exactly an opcode without a row (`decode_three`). -/
theorem undefinedOpcodesAreRejected : Obligations.UndefinedOpcodesAreRejected := by
  intro op b1 b2 rest
  rw [← lookupOpcode_eq_none_iff]
  exact decode_three op b1 b2 rest

/-- Settles O6: the words are closed, and the decoder is run on each. -/
theorem sampleWordsDecode : Obligations.SampleWordsDecode := by
  unfold Obligations.SampleWordsDecode
  decide

end Sys2Proof.Claims
end

section
/-! SUPPORT. What every instruction leaves: memory changed by exactly its bus writes (20_memory R89), and the registers its rule does
not name unchanged (10_state R41 to R45). -/

namespace Sys2Proof.Claims

open Sys2Proof.Machine

/-! ### Histories -/

theorem applyWrites_append (h h' : List BusAccess) (m : Memory) :
    applyWrites (h ++ h') m = applyWrites h' (applyWrites h m) := by
  induction h generalizing m with
  | nil => rfl
  | cons b h ih => cases b <;> exact ih _

/-- A history with no write in it. -/
def OnlyReads (h : List BusAccess) : Prop := ∀ b ∈ h, ∃ a, b = .read a

theorem OnlyReads.append {h h' : List BusAccess} (hh : OnlyReads h) (hh' : OnlyReads h') : OnlyReads (h ++ h') :=
  fun b hb => (List.mem_append.1 hb).elim (hh b) (hh' b)

theorem OnlyReads.applyWrites_eq {h : List BusAccess} (hh : OnlyReads h) (m : Memory) : applyWrites h m = m := by
  induction h with
  | nil => rfl
  | cons b h ih =>
    obtain ⟨a, rfl⟩ := hh b (by simp)
    exact ih fun b hb => hh b (by simp [hb])

theorem OnlyReads.write_not_mem {h : List BusAccess} (hh : OnlyReads h) (a : Word) (v : Byte) : .write a v ∉ h := by
  intro hmem
  obtain ⟨_, e⟩ := hh _ hmem
  cases e

theorem onlyReads_nil : OnlyReads [] := fun _ hb => absurd hb List.not_mem_nil

theorem OnlyReads.cons {h : List BusAccess} (hh : OnlyReads h) (a : Word) : OnlyReads (.read a :: h) :=
  List.forall_mem_cons.2 ⟨⟨a, rfl⟩, hh⟩

theorem onlyReads_fetchReads (n : Nat) (a : Word) : OnlyReads (fetchReads n a) := by
  induction n generalizing a with
  | zero => exact onlyReads_nil
  | succ n ih => exact (ih (a + 1#16)).cons a

theorem onlyReads_pointerReads (o : Operand) (s : State) : OnlyReads (pointerReads o s) := by
  cases o with
  | indirect | indexedIndirect | indirectIndexed => exact (onlyReads_nil.cons _).cons _
  | _ => exact onlyReads_nil

theorem wf_applyWrites (h : List BusAccess) {m : Memory} (hm : m.wf = true) : (applyWrites h m).wf = true := by
  induction h generalizing m with
  | nil => exact hm
  | cons b h ih =>
    cases b with
    | read a => exact ih hm
    | write a v => exact ih (Memory.wf_write a v hm)

/-- The writes of an interrupt entry's history are its three pushes. -/
theorem applyWrites_entryAccesses (ret : Word) (status : Byte) (vector : Word) (s : State) :
    applyWrites (entryAccesses ret status vector s.sp) s.mem = (interruptEntry ret status vector s).mem := rfl

/-! ### Memory after an instruction is memory with the writes of its history -/

/-- What an instruction accesses after its fetch and pointer reads. -/
def accessesOf (i : Instr) (s : State) : List BusAccess := operationAccesses i.mnemonic (resolve i.operand s).opnd s

/-- Every instruction completes, and memory changes by the writes of its history. -/
theorem exec_mem (i : Instr) (s : State) : ∃ t, exec i s = .next t ∧ t.mem = applyWrites (accessesOf i s) s.mem := by
  cases i with
  | bpl | bmi | bvc | bvs | bcc | bcs | bne | beq => exact ⟨_, rfl, branch_mem ..⟩
  | _ => exact ⟨_, rfl, rfl⟩

/-! ### Forms that store nothing -/

theorem onlyReads_dataRead (o : Opnd) : OnlyReads (dataRead o) := by
  cases o with
  | addr ea => exact onlyReads_nil.cons ea
  | none | acc | imm | target => exact onlyReads_nil

theorem onlyReads_pullReads (n : Nat) (sp : Byte) : OnlyReads (pullReads n sp) := by
  induction n generalizing sp with
  | zero => exact onlyReads_nil
  | succ n ih => exact (ih (sp + 1#8)).cons _

theorem opnd_of_mode_accumulator {o : Operand} (h : o.mode = .accumulator) (s : State) : (resolve o s).opnd = .acc := by
  cases o with
  | accumulator => rfl
  | _ => cases h

/-- An instruction outside the storing forms writes nothing. -/
theorem onlyReads_accessesOf {i : Instr} (h : ¬ writesMemory i) (s : State) : OnlyReads (accessesOf i s) := by
  simp only [writesMemory, not_or, not_and, not_not] at h
  obtain ⟨hstore, hshift⟩ := h
  rw [accessesOf]
  cases hm : i.mnemonic with
  | sta | stx | sty | inc | dec | pha | php | jsr | brk => simp [hm] at hstore
  | asl | lsr | rol | ror =>
    rw [opnd_of_mode_accumulator (hshift (by simp [hm])) s]
    exact onlyReads_nil
  | lda | ldx | ldy | adc | sbc | and | ora | eor | cmp | cpx | cpy | bit => exact onlyReads_dataRead _
  | pla | plp => exact onlyReads_pullReads 1 s.sp
  | rts => exact onlyReads_pullReads 2 s.sp
  | rti => exact onlyReads_pullReads 3 s.sp
  | _ => exact onlyReads_nil

/-- Settles O49: the history of such a form has no write. -/
theorem nonStoringFormsKeepMemory : Obligations.NonStoringFormsKeepMemory := by
  intro i s a h
  obtain ⟨t, ht, hmem⟩ := exec_mem i s
  exact ⟨t, ht, by rw [hmem, (onlyReads_accessesOf h s).applyWrites_eq]⟩

/-! ### The registers an instruction writes -/

/-- Settles O48: by the field lemmas of its operation each arm leaves every register as it found it but those its rule names, and
these the claim's list excludes. -/
theorem instructionsWriteOnlyTheirRegisters : Obligations.InstructionsWriteOnlyTheirRegisters := by
  intro i s
  cases i with
  | ldaIndX | ldaZp | ldaImm | ldaAbs | ldaIndY | ldaZpX | ldaAbsY | ldaAbsX | txa | tya | adcIndX | adcZp | adcImm | adcAbs
  | adcIndY | adcZpX | adcAbsY | adcAbsX | sbcIndX | sbcZp | sbcImm | sbcAbs | sbcIndY | sbcZpX | sbcAbsY | sbcAbsX | andIndX
  | andZp | andImm | andAbs | andIndY | andZpX | andAbsY | andAbsX | oraIndX | oraZp | oraImm | oraAbs | oraIndY | oraZpX
  | oraAbsY | oraAbsX | eorIndX | eorZp | eorImm | eorAbs | eorIndY | eorZpX | eorAbsY | eorAbsX =>
    exact ⟨_, rfl, by simp [writesA, Instr.mnemonic]⟩
  | aslAcc | lsrAcc | rolAcc | rorAcc =>
    exact ⟨_, rfl, by simp [writesA, Instr.mode, Instr.operand, Operand.mode]⟩
  | ldxImm | ldxZp | ldxAbs | ldxZpY | ldxAbsY | tax | tsx | inx | dex =>
    exact ⟨_, rfl, by simp [writesX, Instr.mnemonic]⟩
  | ldyImm | ldyZp | ldyAbs | ldyZpX | ldyAbsX | tay | iny | dey =>
    exact ⟨_, rfl, by simp [writesY, Instr.mnemonic]⟩
  | txs | pha | php | plp =>
    exact ⟨_, rfl, by simp [writesSp, Instr.mnemonic]⟩
  | pla =>
    exact ⟨_, rfl, by simp [writesA, writesSp, Instr.mnemonic]⟩
  | jmpAbs | jmpInd | bpl | bmi | bvc | bvs | bcc | bcs | bne | beq =>
    exact ⟨_, rfl, by simp [writesPc, Instr.mnemonic]⟩
  | jsr | rts | rti | brk =>
    exact ⟨_, rfl, by simp [writesSp, writesPc, Instr.mnemonic]⟩
  | _ => exact ⟨_, rfl, by simp⟩

/-- No instruction touches the halt or the fault record. -/
theorem exec_halted_faultRecord {i : Instr} {s t : State} (h : exec i s = .next t) :
    t.halted = s.halted ∧ t.faultRecord = s.faultRecord := by
  obtain ⟨t', ht', -, -, -, -, -, hhalted, hrecord, -, -⟩ := instructionsWriteOnlyTheirRegisters i s
  cases h.symm.trans ht'
  exact ⟨hhalted, hrecord⟩

/-! ### The decimal flag (41_alu_flags R212) -/

theorem branch_withD (taken : Bool) (offset : Int) (d : Bool) (s : State) :
    branch taken offset (withD d s) = withD d (branch taken offset s) := by
  cases taken <;> rfl

/-- Settles O50: but for the instructions that push or replace D, no meaning reads it, so each commutes with setting it by
definition; a branch moves PC only. -/
theorem decimalModeChangesNoResult : Obligations.DecimalModeChangesNoResult := by
  intro i s d h
  cases i with
  | php | brk | plp | rti | sed | cld => simp [Instr.mnemonic] at h
  | bpl | bmi | bvc | bvs | bcc | bcs | bne | beq => exact congrArg _ (branch_withD ..)
  | _ => rfl

end Sys2Proof.Claims
end

section
/-! SUPPORT. The step of 00_scope R13 and 60_exceptions: what each boundary does, that every instruction completes, and what every step
keeps. -/

namespace Sys2Proof.Claims

open Sys2Proof.Machine

/-! ### The instruction step (40_addressing_modes R161) -/

theorem fetchBytes_eq (s : State) :
    s.fetchBytes = [s.mem.read s.pc, s.mem.read (plus s.pc 1), s.mem.read (plus s.pc 2)] := by
  rw [plus_eq, plus_eq]
  rfl

theorem advancePc_eq (s : State) (n : Nat) : s.advancePc n = { s with pc := plus s.pc n } := by
  rw [plus_eq]
  rfl

theorem instructionStep_of_decode {s : State} {i : Instr} {rest : List Byte} (h : decode s.fetchBytes = .ok (i, rest)) :
    instructionStep s = exec i (s.advancePc i.length) := by
  rw [instructionStep, h]

theorem instructionStep_of_undefined {s : State} (h : s.mem.read s.pc ∈ undefinedOpcodes) :
    instructionStep s = .fault (unknownOpcodeFault s) := by
  have hd : decode s.fetchBytes = .error (.unknownOpcode (s.mem.read s.pc)) :=
    decode_of_lookup_none ((lookupOpcode_eq_none_iff _).2 h) _
  rw [instructionStep, hd]

/-- All an instruction step can answer: the decoded instruction's next state, or the fault of an undefined opcode. -/
theorem instructionStep_outcome (s : State) :
    (∃ i t, exec i (s.advancePc i.length) = .next t ∧ instructionStep s = .next t) ∨
    (s.mem.read s.pc ∈ undefinedOpcodes ∧ instructionStep s = .fault (unknownOpcodeFault s)) := by
  rcases instructionStep_cases s with ⟨i, rest, -, h⟩ | ⟨hnone, h⟩
  · obtain ⟨t, ht, -⟩ := exec_mem i (s.advancePc i.length)
    exact .inl ⟨i, t, ht, h.trans ht⟩
  · exact .inr ⟨(lookupOpcode_eq_none_iff _).1 hnone, h⟩

/-- Settles O7: a quiet boundary runs the instruction step, which runs what it decodes at PC. -/
theorem stepRunsTheDecodedInstruction : Obligations.StepRunsTheDecodedInstruction := by
  intro s i rest hq hd
  have hfetch : decode (afterInputs s).fetchBytes = .ok (i, rest) := by rw [fetchBytes_eq]; exact hd
  exact ⟨(decode_sound hd).1, by rw [step_of_quiet hq, instructionStep_of_decode hfetch, advancePc_eq]; rfl⟩

/-- Settles O8: a quiet boundary runs the instruction step, which faults on an opcode without a row. -/
theorem undefinedOpcodeFaults : Obligations.UndefinedOpcodeFaults := by
  intro s hq hop
  have hundef : (afterInputs s).mem.read (afterInputs s).pc ∈ undefinedOpcodes := hop
  rw [step_of_quiet hq, instructionStep_of_undefined hundef]
  rfl

/-- All the outcomes of a step: a next state, or one of the two faults. -/
theorem step_outcome (s : State) :
    (∃ t, step s = .next t) ∨ (step s = .fault (.halted s.latch) ∧ s.halted = true) ∨
    (step s = .fault (unknownOpcodeFault s.latch) ∧ s.mem.read s.pc ∈ undefinedOpcodes) := by
  rcases step_cases s with h | h | h | ⟨h, -⟩ | ⟨h, -⟩ | ⟨h, -⟩
  · exact .inl ⟨_, h⟩
  · exact .inl ⟨_, h⟩
  · exact .inr (.inl h)
  · exact .inl ⟨_, h⟩
  · exact .inl ⟨_, h⟩
  · rcases instructionStep_outcome s.latch with ⟨i, t, -, hi⟩ | ⟨hop, hi⟩
    · exact .inl ⟨t, h.trans hi⟩
    · exact .inr (.inr ⟨h.trans hi, hop⟩)

/-- Settles O46: a meaning always answers a next state, so a step stops only where the poll finds the core halted or the decoder no
row. -/
theorem everyInstructionCompletes : Obligations.EveryInstructionCompletes := by
  refine ⟨?completes, ?faults, ?refuses⟩
  case completes =>
    intro i s
    obtain ⟨t, ht, -⟩ := exec_mem i s
    exact ⟨t, ht⟩
  case faults =>
    intro s f hf
    rcases step_outcome s with ⟨t, h⟩ | ⟨h, hhalted⟩ | ⟨h, hop⟩
    · cases h.symm.trans hf
    · cases h.symm.trans hf
      exact .inl ⟨_, rfl, hhalted⟩
    · cases h.symm.trans hf
      exact .inr ⟨_, rfl, hop⟩
  case refuses =>
    intro s r hr
    rcases step_outcome s with ⟨t, h⟩ | ⟨h, -⟩ | ⟨h, -⟩
    all_goals cases h.symm.trans hr

/-! ### The boundary poll (60_exceptions R413) -/

section Poll

variable {p : Inputs} {s : State}

theorem poll_powerUp (hp : p.powerOn = true) : poll p s = .powerUp := if_pos hp

theorem poll_reset (hp : p.powerOn = false) (hr : p.reset = true) : poll p s = .reset := by
  simp [poll, hp, hr]

theorem poll_noStep (hp : p.powerOn = false) (hr : p.reset = false) (hh : s.halted = true) : poll p s = .noStep := by
  simp [poll, hp, hr, hh]

theorem poll_nmi (hp : p.powerOn = false) (hr : p.reset = false) (hh : s.halted = false) (hn : s.nmiPending = true) :
    poll p s = .nmi := by
  simp [poll, hp, hr, hh, hn]

theorem poll_irq (hp : p.powerOn = false) (hr : p.reset = false) (hh : s.halted = false) (hn : s.nmiPending = false)
    (hq : p.irq = true) (hi : s.flags.i = false) : poll p s = .irq := by
  simp [poll, hp, hr, hh, hn, hq, hi]

theorem poll_instruction (hp : p.powerOn = false) (hr : p.reset = false) (hh : s.halted = false) (hn : s.nmiPending = false)
    (hq : p.irq = false ∨ s.flags.i = true) : poll p s = .instruction := by
  rcases hq with hq | hq <;> simp [poll, hp, hr, hh, hn, hq]

end Poll

/-- Settles O9: under the hypotheses of each clause the poll chooses its event. -/
theorem boundaryPollOrder : Obligations.BoundaryPollOrder := fun _ =>
  ⟨fun hp => step_of_poll (poll_powerUp hp),
    fun hp hr => step_of_poll (poll_reset hp hr),
    fun hp hr hh => step_of_poll (poll_noStep hp hr hh),
    fun hp hr hh hn => step_of_poll (poll_nmi hp hr hh hn),
    fun hp hr hh hn hq hi => step_of_poll (poll_irq hp hr hh hn hq hi),
    fun hp hr hh hn hq => step_of_poll (poll_instruction hp hr hh hn hq)⟩

/-- Settles O10: without power-up and reset the poll of a halted core is no step, and both of them clear the halt, the record and the
latch. -/
theorem haltedCoreOnlyLeavesByReset : Obligations.HaltedCoreOnlyLeavesByReset := by
  intro s hh
  refine ⟨?only, ?leaves⟩
  case only =>
    intro t ht
    by_contra hno
    rw [not_or, Bool.not_eq_true, Bool.not_eq_true] at hno
    have hfault : step s = .fault (.halted s.latch) := step_of_poll (poll_noStep hno.1 hno.2 hh)
    cases hfault.symm.trans ht
  case leaves =>
    intro hevent
    cases hp : s.nextInputs.powerOn with
    | true => exact ⟨_, step_of_poll (poll_powerUp hp), rfl, rfl, rfl⟩
    | false =>
      have hr : s.nextInputs.reset = true := by simpa [hp] using hevent
      exact ⟨_, step_of_poll (poll_reset hp hr), rfl, rfl, rfl⟩

/-! ### NMI and IRQ (60_exceptions R411 to R414) -/

/-- Settles O11: the poll takes the latched NMI, whose entry is `interruptEntry` of the state with the latch cleared. -/
theorem nmiEntry : Obligations.NmiEntry := by
  intro s hp hr hh hn
  have hlatch : s.latch.nmiPending = true := by simpa using hn
  have hstep : step s = .next (takeNmi s.latch) := step_of_poll (poll_nmi hp hr hh hlatch)
  rw [hstep, interruptStatus_eq]
  exact enters_interruptEntry s.pc s.flags.pushedByInterrupt Config.nmiVector _

/-- Settles O12: the poll takes the unmasked IRQ, whose entry is `interruptEntry`. -/
theorem irqEntry : Obligations.IrqEntry := by
  intro s hp hr hh hn hno hq hi
  have hlatch : s.latch = afterInputs s := by simp only [State.latch, afterInputs, hno, Bool.or_false]
  have hpoll : poll s.nextInputs s.latch = .irq := by rw [hlatch]; exact poll_irq hp hr hh hn hq hi
  rw [step_of_poll hpoll, hlatch, interruptStatus_eq]
  exact enters_interruptEntry s.pc s.flags.pushedByInterrupt Config.irqVector _

/-! ### The invariant -/

section Invariant

variable {s : State} (h : s.Inv)
include h

theorem inv_latch : s.latch.Inv := ⟨h.canonical, h.record⟩

theorem inv_advancePc (n : Nat) : (s.advancePc n).Inv := ⟨h.canonical, h.record⟩

theorem inv_powerUp : (powerUp s).Inv := ⟨wf_powerUpWith Config.powerUpClearRange h.canonical, rfl⟩

theorem inv_resetSequence : (resetSequence s).Inv :=
  ⟨wf_resetWith Config.deviceRegisters Config.resetDeviceByte h.canonical, rfl⟩

theorem inv_interruptEntry (ret : Word) (status : Byte) (vector : Word) : (interruptEntry ret status vector s).Inv :=
  ⟨wf_interruptEntry ret status vector h.canonical, by simpa using h.record⟩

theorem inv_takeNmi : (takeNmi s).Inv :=
  inv_interruptEntry (s := { s with nmiPending := false }) ⟨h.canonical, h.record⟩ _ _ _

theorem inv_takeIrq : (takeIrq s).Inv := inv_interruptEntry h _ _ _

/-- An instruction writes memory through its history only, and touches neither the halt nor the record. -/
theorem inv_exec {i : Instr} {t : State} (ht : exec i s = .next t) : t.Inv := by
  obtain ⟨t', ht', hmem⟩ := exec_mem i s
  cases ht'.symm.trans ht
  obtain ⟨hhalted, hrecord⟩ := exec_halted_faultRecord ht
  exact ⟨by rw [hmem]; exact wf_applyWrites _ h.canonical, by rw [hhalted, hrecord]; exact h.record⟩

theorem inv_haltOnUnknownOpcode (op : Byte) : (haltOnUnknownOpcode op s).Inv := ⟨h.canonical, rfl⟩

/-- A next state of the step meets the invariant. -/
theorem inv_step {t : State} (ht : step s = .next t) : t.Inv := by
  have hl := inv_latch h
  rcases step_cases s with hs | hs | ⟨hs, -⟩ | ⟨hs, -⟩ | ⟨hs, -⟩ | ⟨hs, -⟩
  · cases hs.symm.trans ht
    exact inv_powerUp hl
  · cases hs.symm.trans ht
    exact inv_resetSequence hl
  · cases hs.symm.trans ht
  · cases hs.symm.trans ht
    exact inv_takeNmi hl
  · cases hs.symm.trans ht
    exact inv_takeIrq hl
  · rcases instructionStep_outcome s.latch with ⟨i, u, hexec, hi⟩ | ⟨-, hi⟩
    · cases (hs.trans hi).symm.trans ht
      exact inv_exec (inv_advancePc hl i.length) hexec
    · cases (hs.trans hi).symm.trans ht

end Invariant

/-- Settles O17: each event keeps the invariant, and so do the states the two faults carry. -/
theorem stepKeepsTheInvariant : Obligations.StepKeepsTheInvariant := by
  intro s h
  refine ⟨fun t => inv_step h, ?unknownOpcode, ?halted⟩
  case unknownOpcode =>
    intro op a t ht
    rcases step_outcome s with ⟨u, hs⟩ | ⟨hs, -⟩ | ⟨hs, -⟩
    all_goals cases hs.symm.trans ht
    exact ⟨inv_haltOnUnknownOpcode (inv_latch h) _, rfl⟩
  case halted =>
    intro t ht
    rcases step_outcome s with ⟨u, hs⟩ | ⟨hs, hhalted⟩ | ⟨hs, -⟩
    all_goals cases hs.symm.trans ht
    exact ⟨inv_latch h, hhalted⟩

/-- Settles O16: the memory lists nothing and there is no record. -/
theorem resetStateMeetsTheInvariant : Obligations.ResetStateMeetsTheInvariant := ⟨Memory.wf_nil, rfl⟩

/-! ### Memory after a step is memory with the step's bus writes (20_memory R92, R95) -/

/-- A next state has the memory `m` with the writes of the history, and the history of a fault has none. -/
def ChangesByWrites (r : Host.Outcome State Fault Refusal) (history : List BusAccess) (m : Memory) : Prop :=
  (∀ t, r = .next t → t.mem = applyWrites history m) ∧ ∀ f, r = .fault f → OnlyReads history

theorem changesByWrites_next {t : State} {history : List BusAccess} {m : Memory} (h : t.mem = applyWrites history m) :
    ChangesByWrites (.next t) history m :=
  ⟨fun _ e => Host.Outcome.next.inj e ▸ h, fun _ e => (by cases e)⟩

theorem changesByWrites_fault {f : Fault} {history : List BusAccess} {m : Memory} (h : OnlyReads history) :
    ChangesByWrites (.fault f) history m :=
  ⟨fun _ e => (by cases e), fun _ _ => h⟩

theorem changesByWrites_instructionStep (s : State) :
    ChangesByWrites (instructionStep s) (instructionAccesses s) s.mem := by
  cases hd : decode s.fetchBytes with
  | error e =>
    simp only [instructionStep, instructionAccesses, hd]
    exact changesByWrites_fault (onlyReads_nil.cons s.pc)
  | ok r =>
    obtain ⟨i, rest⟩ := r
    have hreads : OnlyReads (fetchReads i.length s.pc ++ pointerReads i.operand (s.advancePc i.length)) :=
      (onlyReads_fetchReads _ _).append (onlyReads_pointerReads _ _)
    obtain ⟨t, ht, hmem⟩ := exec_mem i (s.advancePc i.length)
    simp only [instructionStep, instructionAccesses, hd, ht]
    exact changesByWrites_next (by rw [applyWrites_append, hreads.applyWrites_eq, hmem]; rfl)

/-- Settles O58: the poll leaves four events, of which the two entries write their three pushes, the instruction its own history, and
a halted core nothing. -/
theorem stepMemoryIsItsBusWrites : Obligations.StepMemoryIsItsBusWrites := by
  intro s hp hr
  have key : ChangesByWrites (step s) (stepAccesses s) s.latch.mem := by
    rw [step, stepAccesses]
    rcases poll_cases s.nextInputs s.latch with ⟨-, h⟩ | ⟨-, -, h⟩ | ⟨h, -⟩ | ⟨h, -⟩ | ⟨h, -⟩ | ⟨h, -⟩
    · simp [hp] at h
    · simp [hr] at h
    all_goals rw [h]
    · exact changesByWrites_fault onlyReads_nil
    · exact changesByWrites_next (applyWrites_entryAccesses s.pc s.flags.pushedByInterrupt Config.nmiVector _).symm
    · exact changesByWrites_next (applyWrites_entryAccesses s.pc s.flags.pushedByInterrupt Config.irqVector _).symm
    · exact changesByWrites_instructionStep s.latch
  exact ⟨key.1, fun f hf => (key.2 f hf).write_not_mem⟩

end Sys2Proof.Claims
end

section
/-! SUPPORT. Memory (20_memory) and the power-up and reset sequences (70_reset_and_hazards) in the words of the statements. -/

namespace Sys2Proof.Claims

open Sys2Proof.Machine

/-! ### The flat memory (20_memory R80 to R86) -/

/-- Settles O18: these are the read rules of a write, and a write keeps the canonical form. -/
theorem readReturnsLastWrite : Obligations.ReadReturnsLastWrite := fun m a _ v =>
  ⟨Memory.read_write_same m a v, Memory.read_write_other m v, Memory.wf_write a v⟩

/-- Settles O19: a read of every word is a lookup of every address below 65536. -/
theorem canonicalMemoriesAreEqualByReads : Obligations.CanonicalMemoriesAreEqualByReads := by
  intro m m' hm hm' hread
  refine Memory.eq_of_lookup_eq hm hm' fun a ha => ?_
  have h := hread (BitVec.ofNat 16 a)
  rwa [Memory.read, Memory.read, BitVec.toNat_ofNat, Nat.mod_eq_of_lt ha] at h

/-- Settles O20: each 16-bit read is the little-endian pair of its two bytes. -/
theorem wordReadsAreLittleEndian : Obligations.WordReadsAreLittleEndian := fun m a z =>
  ⟨(wordAt_eq m a).symm, (pageWrap_eq m a).symm, (zeroPageWord_eq m z).symm⟩

/-! ### Power-up (70_reset_and_hazards R450, R451) -/

/-- Settles O13: the sequence fills the range, if there is one, and reads PC from the memory it leaves. -/
theorem powerUpSequence : Obligations.PowerUpSequence := by
  intro range s
  refine ⟨clearRange range s.mem, by rw [wordAt_eq]; rfl, fun a => ?_⟩
  cases range with
  | none => rfl
  | some r => exact Memory.read_zeroFill s.mem r a

theorem clearRange_nil (range : Option Config.AddressRange) : clearRange range [] = [] := by
  cases range <;> rfl

/-- Settles O15: no range changes an empty memory, whose reset vector reads 0x0000. -/
theorem resetStateIsPowerUpOfZeroMemory : Obligations.ResetStateIsPowerUpOfZeroMemory := by
  intro s hmem hinputs
  refine ⟨?powerUp, rfl, rfl⟩
  rw [powerUp, powerUpWith, hmem, clearRange_nil, hinputs]
  rfl

/-! ### Reset (70_reset_and_hazards R452, R453) -/

/-- Settles O14: the sequence writes the device registers only, and reads PC from the memory it leaves. -/
theorem resetSequence : Obligations.ResetSequence := by
  intro registers byteOf s
  refine ⟨Memory.writeEach (byteOf s.mem) registers s.mem, by rw [wordAt_eq, sp_sub_three]; rfl, fun a ha => ?_, fun a ha => ?_⟩
  · rw [Memory.read_writeEach, if_neg ha]
  · rw [Memory.read_writeEach, if_pos ha]

end Sys2Proof.Claims
end

section
/-! SUPPORT. The shifts and rotates of 44_logical_shift in the words of the statements: one byte, or A, takes the shifted value, C the
bit shifted out. -/

namespace Sys2Proof.Claims

open Sys2Proof.Machine

variable (v : Byte) (c : Bool) (f : Flags) (ea : Word) (s : State)

/-! ### The four results as arithmetic (41_alu_flags R209) -/

theorem leftOf_zero_eq : leftOf 0 v = (shiftLeft v).value := by
  apply BitVec.eq_of_toNat_eq
  rw [shiftLeft_value, leftOf, BitVec.toNat_ofNat]
  exact Nat.mod_mod _ 256

theorem leftOf_carry_eq : leftOf c.toNat v = (rotateLeft v c).value := by
  apply BitVec.eq_of_toNat_eq
  rw [rotateLeft_value, leftOf, BitVec.toNat_ofNat]
  exact Nat.mod_mod _ 256

theorem rightOf_zero_eq : rightOf 0 v = (shiftRight v).value := by
  have := v.isLt
  apply BitVec.eq_of_toNat_eq
  rw [shiftRight_value, rightOf, BitVec.toNat_ofNat]
  omega

theorem rightOf_carry_eq : rightOf c.toNat v = (rotateRight v c).value := by
  have := v.isLt
  have := c.toNat_le
  apply BitVec.eq_of_toNat_eq
  rw [rotateRight_value, rightOf, BitVec.toNat_ofNat]
  omega

/-- The flags of a shift: C as shifted out, N and Z of the result. -/
def shiftFlags (r : ShiftResult) : Flags := Flags.setNZ { f with c := r.carry } r.value

theorem leftFlags_zero_eq : leftFlags f 0 v = shiftFlags f (shiftLeft v) := by
  rw [leftFlags, nz_eq, leftOf_zero_eq, ← getLsbD_seven]
  rfl

theorem leftFlags_carry_eq : leftFlags f c.toNat v = shiftFlags f (rotateLeft v c) := by
  rw [leftFlags, nz_eq, leftOf_carry_eq, ← getLsbD_seven]
  rfl

theorem rightFlags_zero_eq : rightFlags f 0 v = shiftFlags f (shiftRight v) := by
  rw [rightFlags, nz_eq, rightOf_zero_eq, ← getLsbD_zero_eq]
  rfl

theorem rightFlags_carry_eq : rightFlags f c.toNat v = shiftFlags f (rotateRight v c) := by
  rw [rightFlags, nz_eq, rightOf_carry_eq, ← getLsbD_zero_eq]
  rfl

/-! ### The operations in memory and in the accumulator (R283 to R286) -/

theorem stores_shiftAt (r : ShiftResult) : Stores s (.next (shiftAt (.addr ea) r s)) ea r.value (shiftFlags s.flags r) :=
  stores_write_flags r.value ea s _

theorem modifies_asl : Modifies s (.next (asl (.addr ea) s)) ea (leftOf 0) (leftFlags s.flags 0) := by
  rw [Modifies, leftOf_zero_eq, leftFlags_zero_eq]
  exact stores_shiftAt ea s _

theorem modifies_lsr : Modifies s (.next (lsr (.addr ea) s)) ea (rightOf 0) (rightFlags s.flags 0) := by
  rw [Modifies, rightOf_zero_eq, rightFlags_zero_eq]
  exact stores_shiftAt ea s _

theorem modifies_rol :
    Modifies s (.next (rol (.addr ea) s)) ea (leftOf s.flags.c.toNat) (leftFlags s.flags s.flags.c.toNat) := by
  rw [Modifies, leftOf_carry_eq, leftFlags_carry_eq]
  exact stores_shiftAt ea s _

theorem modifies_ror :
    Modifies s (.next (ror (.addr ea) s)) ea (rightOf s.flags.c.toNat) (rightFlags s.flags s.flags.c.toNat) := by
  rw [Modifies, rightOf_carry_eq, rightFlags_carry_eq]
  exact stores_shiftAt ea s _

theorem exec_aslAcc : exec .aslAcc s = .next { s with a := leftOf 0 s.a, flags := leftFlags s.flags 0 s.a } := by
  rw [leftOf_zero_eq, leftFlags_zero_eq]
  rfl

theorem exec_lsrAcc : exec .lsrAcc s = .next { s with a := rightOf 0 s.a, flags := rightFlags s.flags 0 s.a } := by
  rw [rightOf_zero_eq, rightFlags_zero_eq]
  rfl

theorem exec_rolAcc : exec .rolAcc s =
    .next { s with a := leftOf s.flags.c.toNat s.a, flags := leftFlags s.flags s.flags.c.toNat s.a } := by
  rw [leftOf_carry_eq, leftFlags_carry_eq]
  rfl

theorem exec_rorAcc : exec .rorAcc s =
    .next { s with a := rightOf s.flags.c.toNat s.a, flags := rightFlags s.flags s.flags.c.toNat s.a } := by
  rw [rightOf_carry_eq, rightFlags_carry_eq]
  rfl

/-- Settles O31: each form is ASL (R283), LSR (R286), ROL (R284) or ROR (R285) at the address of its mode, or in A. -/
theorem shiftsAndRotates : Obligations.ShiftsAndRotates := fun n w s =>
  ⟨modifies_asl (eaZeroPage n) s, exec_aslAcc s, modifies_asl (eaAbsolute w) s, modifies_asl (eaZeroPageX n s) s,
    modifies_asl (eaAbsoluteX w s) s,
    modifies_lsr (eaZeroPage n) s, exec_lsrAcc s, modifies_lsr (eaAbsolute w) s, modifies_lsr (eaZeroPageX n s) s,
    modifies_lsr (eaAbsoluteX w s) s,
    modifies_rol (eaZeroPage n) s, exec_rolAcc s, modifies_rol (eaAbsolute w) s, modifies_rol (eaZeroPageX n s) s,
    modifies_rol (eaAbsoluteX w s) s,
    modifies_ror (eaZeroPage n) s, exec_rorAcc s, modifies_ror (eaAbsolute w) s, modifies_ror (eaZeroPageX n s) s,
    modifies_ror (eaAbsoluteX w s) s⟩

end Sys2Proof.Claims
end

section
/-! SUPPORT. SBC and the comparisons of 45_arithmetic_compare, and the branches of 46_branch, in the words of the statements. -/

namespace Sys2Proof.Claims

open Sys2Proof.Machine

variable (m : Byte) (s : State)

/-! ### SBC (R301): the difference, the borrow and the signed overflow of `Sub` (41_alu_flags R204) -/

/-- The byte of the difference is the difference mod 256. -/
theorem ofNat_diff_mod (a m : Byte) (c : Bool) :
    BitVec.ofNat 8 (((a.toNat : Int) - m.toNat - (1 - c.toNat)) % 256).toNat = (sub a m c).value := by
  have h := sub_value a m c
  apply BitVec.eq_of_toNat_eq
  rw [BitVec.toNat_ofNat]
  omega

/-- The claim's result is that of the subtractor, value, carry (`sub_carry`) and overflow (`sub_overflow`). -/
theorem sbc_eq_sbcResult : sbc m s = sbcResult s m := by
  rw [sbc_eq, sumToA_eq, sub_carry, sub_overflow]
  simp only [sbcResult, ofNat_diff_mod, nz_eq, signed8_eq]

theorem next_sbc : (.next (sbc m s) : Result) = .next (sbcResult s m) := congrArg _ (sbc_eq_sbcResult m s)

/-- Settles O33: each form is SBC (R301) of the immediate byte, or of the byte at the address of its mode. -/
theorem sbcSubtractsWithBorrow : Obligations.SbcSubtractsWithBorrow := fun n w s =>
  ⟨next_sbc (s.mem.read (eaIndexedIndirect n s)) s, next_sbc (s.mem.read (eaZeroPage n)) s, next_sbc n s,
    next_sbc (s.mem.read (eaAbsolute w)) s, next_sbc (s.mem.read (eaIndirectIndexed n s)) s,
    next_sbc (s.mem.read (eaZeroPageX n s)) s, next_sbc (s.mem.read (eaAbsoluteY w s)) s,
    next_sbc (s.mem.read (eaAbsoluteX w s)) s⟩

/-- Settles O57: subtracting `m` with borrow `1 - c` is adding `255 - m` with carry `c`, and the difference is 256 less than the
sum; the signed operands are `m` and `-1 - m`. -/
theorem subtractionIsAdditionOfTheComplement : Obligations.SubtractionIsAdditionOfTheComplement := by
  intro a m c
  have hm := m.isLt
  have hnot : (~~~m).toNat = 255 - m.toNat := BitVec.toNat_not
  have hvalue : (sub a m c).value = (add a (~~~m) c).value := by
    have hsub := sub_value a m c
    have hadd := add_value a (~~~m) c
    apply BitVec.eq_of_toNat_eq
    omega
  have hcarry : (sub a m c).carry = (add a (~~~m) c).carry := by
    rw [sub_carry, add_carry, decide_eq_decide]
    omega
  have hoverflow : (sub a m c).overflow = (add a (~~~m) c).overflow := by
    have htoInt : (~~~m).toInt = -1 - m.toInt := by
      rw [BitVec.toInt_eq_toNat_cond, BitVec.toInt_eq_toNat_cond, hnot]
      split <;> split <;> omega
    rw [sub_overflow, add_overflow, htoInt, decide_eq_decide]
    omega
  show SumResult.mk (sub a m c).value (sub a m c).carry (sub a m c).overflow = add a (~~~m) c
  rw [hvalue, hcarry, hoverflow]

/-! ### CMP, CPX and CPY (R302 to R304) -/

theorem setFlags_compare (r : Byte) : (.next (s.setFlags (s.flags.compare r m)) : Result) = .next (compareWith s r m) := by
  rw [Flags.compare_eq]
  rfl

/-- Settles O34: each form sets the flags of `Compare` (41_alu_flags R206) for its register and operand, and nothing else. -/
theorem compareSetsCarryZeroNegative : Obligations.CompareSetsCarryZeroNegative := fun n w s =>
  ⟨setFlags_compare (s.mem.read (eaIndexedIndirect n s)) s s.a, setFlags_compare (s.mem.read (eaZeroPage n)) s s.a,
    setFlags_compare n s s.a, setFlags_compare (s.mem.read (eaAbsolute w)) s s.a,
    setFlags_compare (s.mem.read (eaIndirectIndexed n s)) s s.a, setFlags_compare (s.mem.read (eaZeroPageX n s)) s s.a,
    setFlags_compare (s.mem.read (eaAbsoluteY w s)) s s.a, setFlags_compare (s.mem.read (eaAbsoluteX w s)) s s.a,
    setFlags_compare n s s.x, setFlags_compare (s.mem.read (eaZeroPage n)) s s.x,
    setFlags_compare (s.mem.read (eaAbsolute w)) s s.x,
    setFlags_compare n s s.y, setFlags_compare (s.mem.read (eaZeroPage n)) s s.y,
    setFlags_compare (s.mem.read (eaAbsolute w)) s s.y⟩

/-! ### The branches (R320 to R328) -/

/-- The target is PC plus the signed offset, mod 65536. -/
theorem branchTarget_eq (d : Int) : s.pc + wrap16 d = BitVec.ofNat 16 ((s.pc.toNat + d) % 65536).toNat := by
  have h := toNat_wrap16 d
  apply BitVec.eq_of_toNat_eq
  rw [BitVec.toNat_add, BitVec.toNat_ofNat]
  omega

theorem next_branch_true (flag : Bool) (d : Int) : (.next (branch flag d s) : Result) =
    .next (if flag = true then { s with pc := BitVec.ofNat 16 ((s.pc.toNat + d) % 65536).toNat } else s) := by
  rw [branch_eq, branchTarget_eq]

theorem next_branch_false (flag : Bool) (d : Int) : (.next (branch (!flag) d s) : Result) =
    .next (if flag = false then { s with pc := BitVec.ofNat 16 ((s.pc.toNat + d) % 65536).toNat } else s) := by
  rw [branch_eq, branchTarget_eq]
  simp only [Bool.not_eq_true']

/-- Settles O36: each is the branch (R320) on its flag, set or clear. -/
theorem branchesTakeTargetWhenFlagMatches : Obligations.BranchesTakeTargetWhenFlagMatches := fun d s =>
  ⟨next_branch_false s s.flags.n d, next_branch_true s s.flags.n d, next_branch_false s s.flags.v d,
    next_branch_true s s.flags.v d, next_branch_false s s.flags.c d, next_branch_true s s.flags.c d,
    next_branch_false s s.flags.z d, next_branch_true s s.flags.z d⟩

end Sys2Proof.Claims
end

section
/-! SUPPORT. The status byte (10_state R46 to R48), PHP, PLP, TXS, BRK and RTI in the words of the statements, and the two round trips
through the stack: RTS after JSR, RTI after an interrupt entry. -/

namespace Sys2Proof.Claims

open Sys2Proof.Machine

/-! ### The status byte -/

/-- Settles O55: the bytes are the numbers of `Flags.toNat_view` and `Flags.toNat_pushedByInterrupt`, and each loads back. -/
theorem statusByteViews : Obligations.StatusByteViews := fun f b =>
  ⟨Flags.toNat_view f, by rw [Flags.pushedByInstruction_eq_view]; exact Flags.toNat_view f, Flags.toNat_pushedByInterrupt f,
    (flagsOf_eq b).symm, Flags.ofByte_view f, Flags.ofByte_pushedByInterrupt f, Flags.view_ofByte b⟩

/-! ### PHP, PLP and TXS -/

theorem exec_php (s : State) : exec .php s = .next (s.push s.flags.pushedByInstruction) := rfl

theorem exec_plp (s : State) : exec .plp s = .next (s.afterPull.setFlags (Flags.ofByte s.pulled)) := rfl

/-- Settles O39: PHP is the push of the view, and PLP the pull of the byte it loads. -/
theorem phpPlpMoveTheStatus : Obligations.PhpPlpMoveTheStatus := by
  intro s
  refine ⟨?php, ?plp⟩
  case php =>
    obtain ⟨m', hpush, hbyte⟩ := push_writes_stackByte s.flags.pushedByInstruction s
    exact ⟨m', by rw [exec_php, hpush], by rw [instructionStatus_eq]; exact hbyte⟩
  case plp => rw [exec_plp, pulled_eq_read_stackByte, afterPull_eq_sp_add_one, flagsOf_eq, State.setFlags]

theorem exec_txs (s : State) : exec .txs s = .next (s.setSp s.x) := rfl

/-- Settles O27: TXS (R241) sets SP only. -/
theorem txsWritesNoFlag : Obligations.TxsWritesNoFlag := exec_txs

/-! ### Push then pull -/

/-- Settles O52: the pulls read the two bytes pushed, high byte first, and move SP back over them. -/
theorem stackRoundTrip : Obligations.StackRoundTrip := fun s w =>
  ⟨pulled16_push16 s w, afterPull16_push16 s w, pushed_push16 s w⟩

/-! ### JSR then RTS (48_control_transfer R361, R362) -/

theorem sub_one_add_one (w : Word) : w - 1#16 + 1#16 = w := BitVec.sub_add_cancel w 1#16

/-- RTS does not read PC. -/
theorem exec_rts_setPc (s : State) (w pc' : Word) :
    exec .rts { s.setPc w with pc := pc' } = .next { s.afterPull16 with pc := s.pulled16 + 1#16 } := rfl

/-- Settles O53: JSR pushed PC - 1, and RTS pulls it and adds 1. -/
theorem subroutineReturnsAfterItsCall : Obligations.SubroutineReturnsAfterItsCall := by
  intro w pc' s t ht
  rw [exec_jsr] at ht
  cases ht
  rw [exec_rts_setPc, pulled16_push16, afterPull16_push16, sub_one_add_one, State.setPc_mem]

/-! ### The interrupt entry and the return (60_exceptions R411, 48_control_transfer R363, R364) -/

theorem exec_rti (s : State) : exec .rti s = .next (interruptReturn s) := rfl

theorem exec_brk (s : State) :
    exec .brk s = .next (interruptEntry (s.pc + 1#16) s.flags.pushedByInstruction Config.irqVector s) := rfl

theorem add_one_add_one_add_one (sp : Byte) : sp + 1#8 + 1#8 + 1#8 = sp + 3#8 := by
  rw [add_one_add_one]
  exact BitVec.add_assoc sp 1#8 2#8

/-- Settles O43: RTI is one pull for the flags and two for PC. -/
theorem rtiRestoresStatusAndPc : Obligations.RtiRestoresStatusAndPc := by
  intro s
  rw [exec_rti, interruptReturn_eq, add_one_add_one_add_one, add_one_add_one, sp_add, stackByte_add, stackByte_add, stackByte_add,
    flagsOf_eq, pair_eq]

/-- Settles O44: BRK is the interrupt entry with PC + 1, the pushed view and the IRQ vector. -/
theorem brkEntersInterrupt : Obligations.BrkEntersInterrupt := by
  intro s
  rw [exec_brk, plus_eq, instructionStatus_eq]
  exact enters_interruptEntry _ _ _ s

/-- Settles O54: both status bytes load back as the flags before the entry. -/
theorem interruptReturnUndoesEntry : Obligations.InterruptReturnUndoesEntry := by
  intro s ret vector pc'
  have undoes (status : Byte) (h : Flags.ofByte status = s.flags) :
      exec .rti { interruptEntry ret status vector s with pc := pc' } =
        .next { s with mem := (interruptEntry ret status vector s).mem, pc := ret } := by
    rw [exec_rti, interruptReturn_interruptEntry ret status vector pc' s h]
  exact ⟨undoes _ (by rw [Flags.pushedByInstruction_eq_view, Flags.ofByte_view]), undoes _ (Flags.ofByte_pushedByInterrupt _)⟩

end Sys2Proof.Claims
end

section
/-! SUPPORT. What an instruction stores is what memory then holds, and what the next step fetches (20_memory R95). -/

namespace Sys2Proof.Claims

open Sys2Proof.Machine

/-! ### The bytes stored, one rule for each shape of write -/

/-- Memory after a history reads, at every address, as the byte listed for it or else as before. -/
def ReadsAsStored (history : List BusAccess) (stored : List (Word × Byte)) (m : Memory) : Prop :=
  ∀ a, (applyWrites history m).read a = (stored.lookup a).getD (m.read a)

theorem readsAsStored_of_onlyReads {history : List BusAccess} (h : OnlyReads history) (m : Memory) :
    ReadsAsStored history [] m :=
  fun a => by rw [h.applyWrites_eq, List.lookup_nil, Option.getD_none]

theorem readsAsStored_write (ea : Word) (v : Byte) (m : Memory) : ReadsAsStored [.write ea v] [(ea, v)] m :=
  fun a => by rw [lookup_cons_getD, List.lookup_nil, Option.getD_none]; exact Memory.read_write m ea a v

theorem readsAsStored_dataWrite (v : Byte) (o : Opnd) (m : Memory) :
    ReadsAsStored (dataWrite v o) (storedAt o fun _ => v) m := by
  cases o with
  | addr ea => exact readsAsStored_write ea v m
  | none | acc | imm | target => exact readsAsStored_of_onlyReads onlyReads_nil m

theorem readsAsStored_dataModify {f g : Byte → Byte} (h : ∀ v, g v = f v) (s : State) (o : Opnd) :
    ReadsAsStored (dataModify f s o) (storedAt o fun ea => g (s.mem.read ea)) s.mem := by
  cases o with
  | addr ea =>
    rw [storedAt, h]
    exact readsAsStored_write ea (f (s.mem.read ea)) s.mem
  | none | acc | imm | target => exact readsAsStored_of_onlyReads onlyReads_nil s.mem

theorem readsAsStored_push (sp v : Byte) (m : Memory) :
    ReadsAsStored (pushWrites sp [v]) [(stackByte sp.toNat, v)] m := by
  rw [stackByte_eq]
  exact readsAsStored_write (stackAddress sp) v m

/-- The second and third stack byte below SP, as the statements write them. -/
theorem stackByte_add_255 (sp : Byte) : stackByte (sp.toNat + 255) = stackAddress (sp - 1#8) := by
  rw [← stackByte_second]
  rfl

theorem stackByte_add_254 (sp : Byte) : stackByte (sp.toNat + 254) = stackAddress (sp - 1#8 - 1#8) := by
  rw [← stackByte_third]
  rfl

/-- A 16-bit push writes two different addresses, so their order does not matter. -/
theorem readsAsStored_push16 (sp : Byte) (w : Word) (m : Memory) :
    ReadsAsStored (pushWrites sp [hi w, lo w])
      [(stackByte sp.toNat, highByte w), (stackByte (sp.toNat + 255), lowByte w)] m := by
  intro a
  rw [stackByte_eq, stackByte_add_255, highByte_eq, lowByte_eq, lookup_cons_getD, lookup_cons_getD]
  have hne := sp_ne_sub_one sp
  simp only [pushWrites, applyWrites, Memory.read_write, List.lookup_nil, Option.getD_none]
  by_cases h : a = stackAddress sp
  · simp [h, hne]
  · simp [h]

/-- An interrupt entry writes three different addresses, and its vector reads change nothing. -/
theorem readsAsStored_entry (ret : Word) (status : Byte) (vector : Word) (sp : Byte) (m : Memory) :
    ReadsAsStored (entryAccesses ret status vector sp)
      [(stackByte sp.toNat, highByte ret), (stackByte (sp.toNat + 255), lowByte ret), (stackByte (sp.toNat + 254), status)] m := by
  intro a
  rw [stackByte_eq, stackByte_add_255, stackByte_add_254, highByte_eq, lowByte_eq, lookup_cons_getD, lookup_cons_getD,
    lookup_cons_getD]
  have h1 := sp_ne_sub_one sp
  have h2 := sp_ne_sub_one (sp - 1#8)
  have h3 := sp_ne_sub_two sp
  simp only [entryAccesses, pushWrites, vectorReads, List.cons_append, List.nil_append, applyWrites, Memory.read_write,
    List.lookup_nil, Option.getD_none]
  by_cases hhigh : a = stackAddress sp
  · simp [hhigh, h1, h3]
  · by_cases hlow : a = stackAddress (sp - 1#8)
    · simp [hlow, h2]
    · simp [hhigh, hlow]

/-! ### Every instruction -/

/-- The writes of an instruction's history are the bytes the rules of files 42 to 48 say it stores. -/
theorem readsAsStored_accessesOf (i : Instr) (s : State) : ReadsAsStored (accessesOf i s) (storedBytes i s) s.mem := by
  rw [accessesOf, storedBytes]
  cases hm : i.mnemonic with
  | sta | stx | sty => exact readsAsStored_dataWrite _ _ s.mem
  | inc => exact readsAsStored_dataModify incOf_eq s _
  | dec => exact readsAsStored_dataModify decOf_eq s _
  | asl => exact readsAsStored_dataModify leftOf_zero_eq s _
  | lsr => exact readsAsStored_dataModify rightOf_zero_eq s _
  | rol => exact readsAsStored_dataModify (leftOf_carry_eq · s.flags.c) s _
  | ror => exact readsAsStored_dataModify (rightOf_carry_eq · s.flags.c) s _
  | pha => exact readsAsStored_push s.sp s.a s.mem
  | php =>
    simp only [instructionStatus_eq]
    exact readsAsStored_push s.sp _ s.mem
  | jsr =>
    simp only [plus_pred]
    exact readsAsStored_push16 s.sp _ s.mem
  | brk =>
    simp only [instructionStatus_eq, plus_eq]
    exact readsAsStored_entry _ _ _ s.sp s.mem
  | lda | ldx | ldy | adc | sbc | and | ora | eor | cmp | cpx | cpy | bit =>
    exact readsAsStored_of_onlyReads (onlyReads_dataRead _) s.mem
  | pla | plp => exact readsAsStored_of_onlyReads (onlyReads_pullReads 1 s.sp) s.mem
  | rts => exact readsAsStored_of_onlyReads (onlyReads_pullReads 2 s.sp) s.mem
  | rti => exact readsAsStored_of_onlyReads (onlyReads_pullReads 3 s.sp) s.mem
  | _ => exact readsAsStored_of_onlyReads onlyReads_nil s.mem

/-- What memory holds after an instruction. -/
theorem read_after_exec {i : Instr} {s t : State} (h : exec i s = .next t) (a : Word) : t.mem.read a = byteAfter i s a := by
  obtain ⟨t', ht', hmem⟩ := exec_mem i s
  cases ht'.symm.trans h
  rw [hmem, byteAfter]
  exact readsAsStored_accessesOf i s a

/-- Settles O59: memory after the instruction holds what it stored, and the step at a quiet boundary reads its opcode and operand
bytes from that memory. -/
theorem storeIsSeenByTheNextFetch : Obligations.StoreIsSeenByTheNextFetch := by
  intro i s t h fetched
  have hfetched (k : Nat) : fetched k = t.mem.read (plus t.pc k) := (read_after_exec h (plus t.pc k)).symm
  refine ⟨read_after_exec h, ?undefined, ?decoded⟩
  case undefined =>
    intro hq hop
    rw [hfetched, plus_zero] at hop ⊢
    exact ⟨_, undefinedOpcodeFaults t hq hop⟩
  case decoded =>
    intro hq j rest hd
    rw [hfetched, hfetched, hfetched, plus_zero] at hd
    exact (stepRunsTheDecodedInstruction t j rest hq hd).2

end Sys2Proof.Claims
end

section
/-! SUPPORT. The harness of 70_reset_and_hazards: the charge of a step (R462, R473) and the load of a program (R470). -/

namespace Sys2Proof.Claims

open Sys2Proof.Machine

/-! ### Costs and the page-cross penalty -/

/-- What holds of the rows of each part of the opcode table holds of every row. -/
theorem forall_mem_opcodeTable {P : Row → Prop} (h0 : ∀ row ∈ opcodeRows0, P row) (h1 : ∀ row ∈ opcodeRows1, P row)
    (h2 : ∀ row ∈ opcodeRows2, P row) (h3 : ∀ row ∈ opcodeRows3, P row) (h4 : ∀ row ∈ opcodeRows4, P row)
    (h5 : ∀ row ∈ opcodeRows5, P row) (h6 : ∀ row ∈ opcodeRows6, P row) (h7 : ∀ row ∈ opcodeRows7, P row) :
    ∀ row ∈ opcodeTable, P row := by
  simp only [opcodeTable, List.forall_mem_append]
  exact ⟨⟨⟨⟨⟨⟨⟨h0, h1⟩, h2⟩, h3⟩, h4⟩, h5⟩, h6⟩, h7⟩

/-- The rows with the penalty are those R473 names. -/
theorem penalty_iff_of_mem_opcodeTable : ∀ row ∈ opcodeTable, row.penalty = true ↔
    row.mnemonic ∈ [.lda, .ldx, .ldy, .ora, .and, .eor, .adc, .sbc, .cmp] ∧
      row.mode ∈ [.absoluteX, .absoluteY, .indirectIndexed] :=
  forall_mem_opcodeTable (by decide) (by decide) (by decide) (by decide) (by decide) (by decide) (by decide) (by decide)

/-- Every branch costs two cycles before any penalty (R462). -/
theorem cycles_of_relative_of_mem_opcodeTable : ∀ row ∈ opcodeTable, row.mode = .relative → row.cycles = 2 :=
  forall_mem_opcodeTable (by decide) (by decide) (by decide) (by decide) (by decide) (by decide) (by decide) (by decide)

theorem pagePenalty_iff (i : Instr) : pagePenalty i.opcode = true ↔
    i.mnemonic ∈ [.lda, .ldx, .ldy, .ora, .and, .eor, .adc, .sbc, .cmp] ∧
      i.mode ∈ [.absoluteX, .absoluteY, .indirectIndexed] := by
  obtain ⟨row, hrow, hmnemonic, hmode, -⟩ := encodesAtItsRow_of_instr i
  rw [pagePenalty, hrow, ← hmnemonic, ← hmode]
  exact penalty_iff_of_mem_opcodeTable row (lookupOpcode_mem hrow).1

theorem defaultCycleCost_of_relative {i : Instr} (h : i.mode = .relative) : defaultCycleCost i.opcode = 2 := by
  obtain ⟨row, hrow, -, hmode, -⟩ := encodesAtItsRow_of_instr i
  rw [defaultCycleCost, hrow]
  exact cycles_of_relative_of_mem_opcodeTable row (lookupOpcode_mem hrow).1 (hmode.trans h)

theorem not_pagePenalty_of_relative {i : Instr} (h : i.mode = .relative) : ¬ pagePenalty i.opcode = true := by
  rw [pagePenalty_iff, h]
  simp

/-- The charge of a step at which an instruction is decoded. -/
theorem stepCharge_of_decode (cost : Byte → Nat) {s : State} {i : Instr} {rest : List Byte}
    (hd : decode s.fetchBytes = .ok (i, rest)) : stepCharge cost s = cost i.opcode +
      (if pagePenalty i.opcode = true ∧ (resolve i.operand { s with pc := plus s.pc i.length }).crossed = true then 1 else 0) := by
  have hop : i.opcode = s.read8 s.pc := (decode_sound hd).2.1
  simp only [stepCharge, crossedAtPc, hd, hop, advancePc_eq, Bool.and_eq_true]

/-! ### Loading bytes -/

theorem plus_succ (base : Word) (k : Nat) : plus (base + 1#16) k = plus base (k + 1) := by
  rw [plus_eq, plus_eq, BitVec.add_assoc, ← BitVec.ofNat_add, Nat.add_comm]

/-- A load leaves every address it does not reach. -/
theorem read_storeBytes_other (base : Word) (bytes : List Byte) (m : Memory) (a : Word)
    (h : ∀ k, k < bytes.length → a ≠ plus base k) : (Memory.storeBytes base bytes m).read a = m.read a := by
  induction bytes generalizing base m with
  | nil => rfl
  | cons b rest ih =>
    have hbase : a ≠ base := by simpa only [plus_zero] using h 0 (by simp)
    have hrest : ∀ k, k < rest.length → a ≠ plus (base + 1#16) k := fun k hk => by
      rw [plus_succ]
      exact h (k + 1) (by simpa using hk)
    rw [Memory.storeBytes, ih (base + 1#16) (m.write base b) hrest, Memory.read_write_other m b hbase]

/-- The last byte a load stores at an address stays there (log 18). -/
theorem read_storeBytes_at (base : Word) (bytes : List Byte) (m : Memory) (k : Nat) (hk : k < bytes.length)
    (hlast : bytes.length ≤ k + 65536) : (Memory.storeBytes base bytes m).read (plus base k) = bytes[k] := by
  induction bytes generalizing base m k with
  | nil => exact absurd hk (Nat.not_lt_zero k)
  | cons b rest ih =>
    rw [List.length_cons] at hk hlast
    cases k with
    | zero =>
      have hrest : ∀ j, j < rest.length → plus base 0 ≠ plus (base + 1#16) j := fun j hj => by
        rw [plus_succ, Ne, plus_inj]
        omega
      rw [Memory.storeBytes, read_storeBytes_other (base + 1#16) rest (m.write base b) _ hrest, plus_zero,
        Memory.read_write_same, List.getElem_cons_zero]
    | succ k =>
      rw [Memory.storeBytes, ← plus_succ, List.getElem_cons_succ]
      exact ih (base + 1#16) (m.write base b) k (by omega) (by omega)

/-- Settles O60: the charge is that of the row of the decoded opcode, and a load stores its bytes in order from the base. -/
theorem harnessPenaltyAndLoad : Obligations.HarnessPenaltyAndLoad := by
  refine ⟨pagePenalty_iff, ?charge, ?load⟩
  case charge =>
    intro cost s i rest hd
    have hop : i.opcode = s.mem.read s.pc := (decode_sound hd).2.1
    have hfetch : decode s.fetchBytes = .ok (i, rest) := by rw [fetchBytes_eq]; exact hd
    have hcharge := stepCharge_of_decode cost hfetch
    rw [← hop]
    refine ⟨hcharge, fun hrel => ⟨?_, defaultCycleCost_of_relative hrel⟩⟩
    rw [hcharge, if_neg fun h => not_pagePenalty_of_relative hrel h.1]
    rfl
  case load =>
    intro h base bytes
    exact ⟨Memory.storeBytes base bytes h.core.mem, rfl, read_storeBytes_at base bytes h.core.mem,
      read_storeBytes_other base bytes h.core.mem⟩

end Sys2Proof.Claims
end
